-- ==== Sys2Proof/Word.lean ====
section
/-! DEFINITION. The word types of the ZT-816: bytes of the link and of frames, and the fixed-width counts the manual names. -/

namespace Sys2Proof

/-- A byte of a frame or of the control link. -/
abbrev Byte := BitVec 8

/-- The local count, and every deadline kept on it (R4, R117). -/
abbrev LocalCount := BitVec 64

/-- A sequence number (R1). -/
abbrev SeqNum := BitVec 32

/-- An epoch (R2, R118). -/
abbrev Epoch := BitVec 16

/-- A per-line or per-feed counter, modulo 2^32 (R5). -/
abbrev Counter := BitVec 32

/-- A record queue total, modulo 2^64 (R5). -/
abbrev Total := BitVec 64

end Sys2Proof
end

