-- ==== Sys2Proof/Config.lean ====
section
/-! DEFINITION. What the part fixes: its sizes, limits and identification. The manual leaves no result value open, so there is no free value here (log 23). -/

namespace Sys2Proof.Config

/-- Entries of a descriptor FIFO (R23). -/
def fifoDepth : Nat := 16

/-- Bytes of a header window (R22). -/
def windowBytes : Nat := 256

/-- Entries of the hold pool (R92). -/
def poolSize : Nat := 1024

/-- Ranges a gap list holds (R103). -/
def gapPlaces : Nat := 4

/-- Entries of the record queue, the marker's slot among them (R159). -/
def queueSlots : Nat := 4096

/-- Results queued and owed that the result FIFO has room for (R180). -/
def resultPlaces : Nat := 4

/-- The largest payload of a frame (R177). -/
def maxPayload : Nat := 1024

/-- The distance behind E at which gaps and held records are aged: a quarter of the number space (R86, R87). -/
def agingDistance : Nat := 2 ^ 30

/-- How far ahead of the candidate a confirming copy may lie (R81). -/
def confirmWindow : Nat := 16

/-- Units of 1/16 of 10^-9 ns in one quarter-nanosecond (R115). -/
def unitsPerQuarter : Nat := 4000000000

/-- The clamp of the frequency term, in 1/16 ppb (R119). -/
def freqLimit : Int := 1600000

/-- The clamp of the phase term and of the rate offset, in 1/16 ppb (R119). -/
def rateLimit : Int := 3200000

/-- The part code of the START frame (R193). -/
def partCode : Nat := 0x0816

/-- The revision of the START frame: a part that behaves as the manual describes reports 1 (R193; log 22, DEDUCED). -/
def revision : Nat := 1

end Sys2Proof.Config
end

