-- ==== Sys2Proof/Syntax.lean ====
section
/-! DEFINITION. The commands: one constructor per row of spec/opcode_table.json, with the operands the row's event carries. -/

namespace Sys2Proof

/-- A line, L0 to L7. -/
abbrev LineId := Fin 8

/-- A feed, F0 to F15. -/
abbrev FeedId := Fin 16

/-- A leg of a feed. -/
inductive Leg where
  | a
  | b
deriving DecidableEq, Repr

/-- A reference input, REF A or REF B. -/
inductive RefId where
  | a
  | b
deriving DecidableEq, Repr

/-- An edge of a reference input (R138). -/
inductive Edge where
  | rising
  | falling
deriving DecidableEq, Repr

/-- The commands the block takes (spec/opcode_table.json). A request carries the tag and the payload of a complete inbound frame of its
kind, one whose CRC matched (R177 to R179); its payload is read by the owning block (R199). Log 7: DESIGN CHOICE. -/
inductive Instr where
  /-- The line's signal-detect input takes this level (R10). -/
  | lineSignalChange (line : LineId) (present : Bool)
  /-- The line port takes a start of frame (R17). -/
  | startOfFrame (line : LineId)
  /-- The line port takes an end of frame, with the check result and the bytes delivered since the start (R19; log 8). -/
  | endOfFrame (line : LineId) (good : Bool) (bytes : List Byte)
  /-- The line's quiet timer expires (R15). -/
  | quietTimerExpiry (line : LineId)
  /-- The ingress arbiter grants, and the classifier matches (R31). -/
  | ingressGrant
  /-- The feed engine takes the matched descriptor (R37). -/
  | handOver
  /-- The feed's pairing timer expires (R99). -/
  | pairingTimerExpiry (feed : FeedId)
  /-- The feed's gap timer expires (R109). -/
  | gapTimerExpiry (feed : FeedId)
  /-- The deadline of the feed's restart candidate passes (R80). -/
  | candidateExpiry (feed : FeedId)
  /-- The silence deadline of the feed's leg passes (R56). -/
  | silenceDeadlineExpiry (feed : FeedId) (leg : Leg)
  /-- The statistics timer expires (R174). -/
  | statisticsTimerExpiry
  /-- The reference input shows this edge (R138). -/
  | referencePulse (ref : RefId) (edge : Edge)
  /-- The monitor's timeout deadline is reached (R142). -/
  | referenceTimeout (ref : RefId)
  /-- The holdover timer expires (R153). -/
  | holdoverTimerExpiry
  /-- The slew has applied what was asked (R127). -/
  | slewComplete
  /-- A ENABLE LINE frame arrives (R11). -/
  | enableLine (tag : Byte) (payload : List Byte)
  /-- A DISABLE LINE frame arrives (R12). -/
  | disableLine (tag : Byte) (payload : List Byte)
  /-- A CONFIGURE LINE frame arrives (R26). -/
  | configureLine (tag : Byte) (payload : List Byte)
  /-- A QUERY LINE frame arrives (R27). -/
  | queryLine (tag : Byte) (payload : List Byte)
  /-- A WRITE SELECTOR frame arrives (R35). -/
  | writeSelector (tag : Byte) (payload : List Byte)
  /-- A CLEAR SELECTOR frame arrives (R36). -/
  | clearSelector (tag : Byte) (payload : List Byte)
  /-- A READ SELECTOR frame arrives (R36). -/
  | readSelector (tag : Byte) (payload : List Byte)
  /-- A CONFIGURE FEED frame arrives (R50). -/
  | configureFeed (tag : Byte) (payload : List Byte)
  /-- A OPEN FEED frame arrives (R51). -/
  | openFeed (tag : Byte) (payload : List Byte)
  /-- A CLOSE FEED frame arrives (R52). -/
  | closeFeed (tag : Byte) (payload : List Byte)
  /-- A QUERY FEED frame arrives (R54). -/
  | queryFeed (tag : Byte) (payload : List Byte)
  /-- A SET TIME frame arrives (R123). -/
  | setTime (tag : Byte) (payload : List Byte)
  /-- A ADJUST TIME frame arrives (R124). -/
  | adjustTime (tag : Byte) (payload : List Byte)
  /-- A SLEW frame arrives (R126). -/
  | slew (tag : Byte) (payload : List Byte)
  /-- A SET RATE frame arrives (R130). -/
  | setRate (tag : Byte) (payload : List Byte)
  /-- A READ TIME frame arrives (R132). -/
  | readTime (tag : Byte) (payload : List Byte)
  /-- A CONFIGURE REFERENCE frame arrives (R139). -/
  | configureReference (tag : Byte) (payload : List Byte)
  /-- A CONFIGURE DISCIPLINE frame arrives (R145). -/
  | configureDiscipline (tag : Byte) (payload : List Byte)
  /-- A TRACK frame arrives (R146). -/
  | track (tag : Byte) (payload : List Byte)
  /-- A MEASURE frame arrives (R154). -/
  | measure (tag : Byte) (payload : List Byte)
  /-- A CONFIGURE QUEUE frame arrives (R165). -/
  | configureQueue (tag : Byte) (payload : List Byte)
  /-- A FETCH frame arrives (R166). -/
  | fetch (tag : Byte) (payload : List Byte)
  /-- A HALT frame arrives (R171). -/
  | halt (tag : Byte) (payload : List Byte)
  /-- A SET NOTICES frame arrives (R189). -/
  | setNotices (tag : Byte) (payload : List Byte)
  /-- A STATUS frame arrives (R190). -/
  | status (tag : Byte) (payload : List Byte)
  /-- A RESTART frame arrives (R191). -/
  | restart (tag : Byte) (payload : List Byte)
  /-- A complete frame arrives whose kind is not a request kind (R179). -/
  | unknownKind (kind tag : Byte) (payload : List Byte)
  /-- The inbound lane delivers the bytes of a frame that ends in a discard (R178; log 7). -/
  | inboundFrameDiscard (bytes : List Byte)
  /-- The outbound arbiter chooses (R183). -/
  | outboundChoice
  /-- The last byte of a RESULT frame goes out (R180). -/
  | resultFrameComplete
  /-- The last byte of a RECORD frame goes out (R167). -/
  | recordFrameComplete
  /-- The last byte of the START frame goes out (R193). -/
  | startFrameComplete
  /-- The link goes DOWN (R184). -/
  | linkDown
  /-- The link comes UP (R184). -/
  | linkUp
  /-- Power-on (R192). -/
  | powerOn
  /-- RSTN goes low (R192). -/
  | lineReset
  /-- The core supply falls below the dip threshold (R192). -/
  | supplyDip
  /-- The causes have ended and the oscillator has settled: the part leaves reset (R192). -/
  | resetRelease
  /-- The part carries out a restart that is due (R191). -/
  | restartExecute
  /-- The last byte of a NOTICE frame goes out (R184). -/
  | noticeFrameComplete
deriving DecidableEq, Repr

end Sys2Proof
end

