-- ==== Sys2Proof/Decode.lean ====
section
/-! DEFINITION. The encodings: decodeTableWord (the table gives no row any bits, so it spells no command), and the control link's own encoding
of frames (R177, R195, R198): byte order, CRC, wire frames, and the command that a complete inbound frame is. -/

namespace Sys2Proof

/-- The command a word of the opcode table's bits spells: no row of the table gives bits. -/
def decodeTableWord (_nbits _w : Nat) : Option Instr := none

/-! ## Byte order (R195) -/

/-- The n low bytes of a number, least significant first. -/
def leBytes : Nat → Nat → List Byte
  | 0, _ => []
  | n + 1, v => BitVec.ofNat 8 v :: leBytes n (v / 256)

/-- The n bytes of a signed number in two's complement, least significant first. -/
def leSigned (n : Nat) (v : Int) : List Byte :=
  leBytes n (v % (2 ^ (8 * n) : Nat)).toNat

/-- The number that bytes spell, least significant first. -/
def leNat : List Byte → Nat
  | [] => 0
  | b :: bs => b.toNat + 256 * leNat bs

/-- The signed number that bytes spell in two's complement, least significant first. -/
def leInt (bs : List Byte) : Int :=
  if leNat bs < 2 ^ (8 * bs.length - 1) then leNat bs else (leNat bs : Int) - (2 ^ (8 * bs.length) : Nat)

/-- The number that bytes spell, most significant first. -/
def beNat (bs : List Byte) : Nat := bs.foldl (fun acc b => acc * 256 + b.toNat) 0

/-! ## Frames (R177) -/

/-- One bit of the CRC with polynomial x^16 + x^12 + x^5 + 1. -/
def crcBit (c : BitVec 16) : BitVec 16 :=
  if c.msb then (c <<< 1) ^^^ 0x1021#16 else c <<< 1

/-- The CRC taken on by one byte, most significant bit first. -/
def crcByte (c : BitVec 16) (b : Byte) : BitVec 16 :=
  Nat.repeat crcBit 8 (c ^^^ (b.setWidth 16 <<< 8))

/-- The CRC-16 of a frame's kind, tag, length and payload (R177). -/
def crc16 (bs : List Byte) : BitVec 16 := bs.foldl crcByte 0xFFFF#16

/-- The start byte of a frame (R177). -/
def startByte : Byte := 0xC3#8

/-- What the CRC covers: kind, tag, length and payload (R177). -/
def frameBody (kind tag : Byte) (payload : List Byte) : List Byte :=
  kind :: tag :: leBytes 2 payload.length ++ payload

/-- The bytes of a frame on the link (R177). -/
def wireFrame (kind tag : Byte) (payload : List Byte) : List Byte :=
  startByte :: frameBody kind tag payload ++ leBytes 2 (crc16 (frameBody kind tag payload)).toNat

/-! ## Request kinds (R198) -/

/-- The payload length of a request kind, and none for a kind that is not a request kind (R198, R199). -/
def requestLength (kind : Byte) : Option Nat :=
  match kind.toNat with
  | 0x01 => some 1
  | 0x02 => some 1
  | 0x03 => some 12
  | 0x04 => some 1
  | 0x08 => some 16
  | 0x09 => some 1
  | 0x0A => some 1
  | 0x10 => some 17
  | 0x11 => some 1
  | 0x12 => some 1
  | 0x13 => some 1
  | 0x18 => some 13
  | 0x19 => some 8
  | 0x1A => some 8
  | 0x1B => some 4
  | 0x1C => some 0
  | 0x20 => some 7
  | 0x21 => some 11
  | 0x22 => some 1
  | 0x23 => some 2
  | 0x28 => some 4
  | 0x29 => some 2
  | 0x2A => some 0
  | 0x30 => some 1
  | 0x31 => some 0
  | 0x32 => some 0
  | _ => none

/-- The command that a complete inbound frame is (R179, R198). -/
def Instr.ofFrame (kind tag : Byte) (payload : List Byte) : Instr :=
  match kind.toNat with
  | 0x01 => .enableLine tag payload
  | 0x02 => .disableLine tag payload
  | 0x03 => .configureLine tag payload
  | 0x04 => .queryLine tag payload
  | 0x08 => .writeSelector tag payload
  | 0x09 => .clearSelector tag payload
  | 0x0A => .readSelector tag payload
  | 0x10 => .configureFeed tag payload
  | 0x11 => .openFeed tag payload
  | 0x12 => .closeFeed tag payload
  | 0x13 => .queryFeed tag payload
  | 0x18 => .setTime tag payload
  | 0x19 => .adjustTime tag payload
  | 0x1A => .slew tag payload
  | 0x1B => .setRate tag payload
  | 0x1C => .readTime tag payload
  | 0x20 => .configureReference tag payload
  | 0x21 => .configureDiscipline tag payload
  | 0x22 => .track tag payload
  | 0x23 => .measure tag payload
  | 0x28 => .configureQueue tag payload
  | 0x29 => .fetch tag payload
  | 0x2A => .halt tag payload
  | 0x30 => .setNotices tag payload
  | 0x31 => .status tag payload
  | 0x32 => .restart tag payload
  | _ => .unknownKind kind tag payload

/-- The frame (kind, tag, payload) whose arrival a command is, and none for a command that is no complete inbound frame. -/
def Instr.toFrame : Instr → Option (Byte × Byte × List Byte)
  | .enableLine tag payload => some (0x01#8, tag, payload)
  | .disableLine tag payload => some (0x02#8, tag, payload)
  | .configureLine tag payload => some (0x03#8, tag, payload)
  | .queryLine tag payload => some (0x04#8, tag, payload)
  | .writeSelector tag payload => some (0x08#8, tag, payload)
  | .clearSelector tag payload => some (0x09#8, tag, payload)
  | .readSelector tag payload => some (0x0A#8, tag, payload)
  | .configureFeed tag payload => some (0x10#8, tag, payload)
  | .openFeed tag payload => some (0x11#8, tag, payload)
  | .closeFeed tag payload => some (0x12#8, tag, payload)
  | .queryFeed tag payload => some (0x13#8, tag, payload)
  | .setTime tag payload => some (0x18#8, tag, payload)
  | .adjustTime tag payload => some (0x19#8, tag, payload)
  | .slew tag payload => some (0x1A#8, tag, payload)
  | .setRate tag payload => some (0x1B#8, tag, payload)
  | .readTime tag payload => some (0x1C#8, tag, payload)
  | .configureReference tag payload => some (0x20#8, tag, payload)
  | .configureDiscipline tag payload => some (0x21#8, tag, payload)
  | .track tag payload => some (0x22#8, tag, payload)
  | .measure tag payload => some (0x23#8, tag, payload)
  | .configureQueue tag payload => some (0x28#8, tag, payload)
  | .fetch tag payload => some (0x29#8, tag, payload)
  | .halt tag payload => some (0x2A#8, tag, payload)
  | .setNotices tag payload => some (0x30#8, tag, payload)
  | .status tag payload => some (0x31#8, tag, payload)
  | .restart tag payload => some (0x32#8, tag, payload)
  | .unknownKind kind tag payload => some (kind, tag, payload)
  | .lineSignalChange _ _ => none
  | .startOfFrame _ => none
  | .endOfFrame _ _ _ => none
  | .quietTimerExpiry _ => none
  | .ingressGrant => none
  | .handOver => none
  | .pairingTimerExpiry _ => none
  | .gapTimerExpiry _ => none
  | .candidateExpiry _ => none
  | .silenceDeadlineExpiry _ _ => none
  | .statisticsTimerExpiry => none
  | .referencePulse _ _ => none
  | .referenceTimeout _ => none
  | .holdoverTimerExpiry => none
  | .slewComplete => none
  | .inboundFrameDiscard _ => none
  | .outboundChoice => none
  | .resultFrameComplete => none
  | .recordFrameComplete => none
  | .startFrameComplete => none
  | .linkDown => none
  | .linkUp => none
  | .powerOn => none
  | .lineReset => none
  | .supplyDip => none
  | .resetRelease => none
  | .restartExecute => none
  | .noticeFrameComplete => none

end Sys2Proof
end

