-- ==== Sys2Proof/Machine/Types.lean ====
section
/-! DEFINITION. The kinds of things State is made of, block by block, in the manual's names. -/

namespace Sys2Proof.Machine

/-! ## Time values and stamps -/

/-- A time value (R3); the bounds of its fields are in their types. -/
structure TimeValue where
  seconds : BitVec 48
  nanos : Fin 1000000000
  quarters : Fin 4
deriving DecidableEq, Repr

/-- The time-base state (R120). -/
inductive TimeState where
  | unset
  | free
  | tracking
  | holdover
deriving DecidableEq, Repr

/-- A reading of the time base, possibly less a deskew (R116, R18). -/
structure Stamp where
  value : TimeValue
  epoch : Epoch
  state : TimeState
deriving DecidableEq, Repr

/-! ## Line ports -/

/-- The state of a line (R10). -/
inductive LineState where
  | disabled
  | down
  | integrating
  | active
deriving DecidableEq, Repr

/-- The cause a LINE record carries (R25). -/
inductive LineCause where
  | enabled
  | disabled
  | signalLost
  | signalBack
  | integrated
  | badRun
deriving DecidableEq, Repr

/-- The five configuration parameters of a line (R26): deskew in quarter-nanoseconds, integration interval in 0.1 µs, lengths in bytes. -/
structure LineConfig where
  deskew : Nat
  integration : Nat
  minLength : Nat
  maxLength : Nat
  badRunLimit : Nat
deriving DecidableEq, Repr

/-- The eight counters of a line port (R28). -/
structure LineCounters where
  started : Counter
  accepted : Counter
  badCheck : Counter
  runts : Counter
  giants : Counter
  discards : Counter
  aborted : Counter
  overruns : Counter
deriving DecidableEq, Repr

/-- The descriptor of an accepted frame (R22); the window length is the length of the window. -/
structure Descriptor where
  line : LineId
  stamp : Stamp
  frameLength : Nat
  window : List Byte
deriving DecidableEq, Repr

/-- One line port (R10 to R29). `frame` is the stamp of the frame in progress that started in ACTIVE (R17, R18); a frame started in
INTEGRATING is counted at its start and holds nothing (R16, log 8). -/
structure LinePort where
  state : LineState
  signal : Bool
  config : LineConfig
  quiet : Option LocalCount
  badRun : BitVec 8
  frame : Option Stamp
  fifo : List Descriptor
  counters : LineCounters
deriving DecidableEq, Repr

/-! ## Classifier -/

/-- A byte order of a profile (R38, R40). -/
inductive ByteOrder where
  | big
  | little
deriving DecidableEq, Repr

/-- One entry of the selector table (R32). -/
structure Selector where
  valid : Bool
  lineSet : BitVec 8
  offset : Nat
  width : Nat
  mask : BitVec 32
  value : BitVec 32
  feed : FeedId
  leg : Leg
  mark : Bool
deriving DecidableEq, Repr

/-- A matched descriptor, waiting in the classifier for the hand-over (R30). -/
structure Matched where
  descriptor : Descriptor
  feed : FeedId
  leg : Leg
  mark : Bool
deriving DecidableEq, Repr

/-- The classifier and the ingress arbiter (R30 to R46). firstIn is the model's own field (log 26): the line whose descriptor was the first appended
while the arbiter waited, kept until the grant that serves it (R31). -/
structure Classifier where
  selectors : Vector Selector 32
  unclaimed : Vector Counter 8
  short : Vector Counter 8
  lastServed : LineId
  firstIn : Option LineId
  held : Option Matched
deriving DecidableEq, Repr

/-! ## Feeds -/

/-- A send-time format (R39). -/
inductive SendFormat where
  | none
  | dayNs
  | scaleNs
  | dayDec
deriving DecidableEq, Repr

/-- A send-time status (R39). -/
inductive SendStatus where
  | none
  | valid
  | outOfWindow
  | badDigits
  | outOfRange
deriving DecidableEq, Repr

/-- The ten parameters of a profile (R48): timeouts in µs, silence time in ms. -/
structure Profile where
  seqOffset : Nat
  seqWidth : Nat
  seqOrder : ByteOrder
  sendOffset : Nat
  sendFormat : SendFormat
  sendOrder : ByteOrder
  pairing : Nat
  gap : Nat
  silence : Nat
  jumpLimit : Nat
deriving DecidableEq, Repr

/-- What a copy brings beside its number (R44); the send time and the latency are in nanoseconds. -/
structure FrameCopy where
  leg : Leg
  line : LineId
  stamp : Stamp
  frameLength : Nat
  mark : Bool
  sendStatus : SendStatus
  sendTime : Option (BitVec 64)
  latency : Option Int
deriving DecidableEq, Repr

/-- An arrival: a number and the copy that carries it (R44). It exists only within one event. -/
structure Arrival where
  number : SeqNum
  copy : FrameCopy
deriving DecidableEq, Repr

/-- What a held record keeps of its twin (R66). -/
structure Twin where
  line : LineId
  stamp : Stamp
deriving DecidableEq, Repr

/-- The flags of a held record (R66). -/
structure RecordFlags where
  lateFill : Bool
  repeatSeen : Bool
  mark : Bool
  restartBase : Bool
deriving DecidableEq, Repr

/-- A record on a hold list or in a candidate slot (R66). -/
structure HeldRecord where
  number : SeqNum
  first : FrameCopy
  twin : Option Twin
  flags : RecordFlags
  deadline : LocalCount
deriving DecidableEq, Repr

/-- A range of the gap list (R103). -/
structure GapRange where
  first : SeqNum
  last : SeqNum
  opened : Stamp
  deadline : LocalCount
deriving DecidableEq, Repr

/-- The state of a leg (R55 to R57); NONE while the feed is CLOSED (R54). -/
inductive LegState where
  | none
  | waiting
  | active
  | silent
deriving DecidableEq, Repr

/-- A leg: its state and its silence deadline (R47). -/
structure LegWatch where
  state : LegState
  deadline : Option LocalCount
deriving DecidableEq, Repr

/-- The state of a feed; RUNNING carries the expected number E, which exists in RUNNING only (R47). -/
inductive FeedState where
  | closed
  | armed
  | running (expected : SeqNum)
deriving DecidableEq, Repr

/-- The sixteen counters of a feed, in their numbered order (R58). -/
structure FeedCounters where
  copiesA : Counter
  copiesB : Counter
  firstCopies : Counter
  twins : Counter
  repeats : Counter
  lateFills : Counter
  lateCopies : Counter
  gapsOpened : Counter
  gapsFilled : Counter
  numbersLost : Counter
  restarts : Counter
  strays : Counter
  notHeld : Counter
  wonA : Counter
  wonB : Counter
  whileClosed : Counter
deriving DecidableEq, Repr

/-- One feed record (R47). -/
structure Feed where
  state : FeedState
  profile : Profile
  legA : LegWatch
  legB : LegWatch
  hold : List HeldRecord
  gaps : List GapRange
  candidate : Option HeldRecord
  counters : FeedCounters
deriving DecidableEq, Repr

/-- A twin status (R89). -/
inductive TwinStatus where
  | paired
  | timeout
  | closed
  | restart
  | aged
  | notHeld
deriving DecidableEq, Repr

/-- A cause of a gap's declaration (R111). -/
inductive GapCause where
  | timeout
  | listFull
  | aged
  | restart
  | closed
deriving DecidableEq, Repr

/-! ## Time base, reference monitors, discipline unit -/

/-- A slew in flight (R127): requested in quarter-nanoseconds, applied in units of 1/16 of 10^-9 ns, rate in ppb. -/
structure SlewFlight where
  requested : Int
  applied : Int
  rate : Nat
deriving DecidableEq, Repr

/-- The time base (R115 to R137). `sub` is the part below a quarter-nanosecond, in units of 1/16 of 10^-9 ns; f and p are in 1/16 ppb.
The slew term s and the rate offset r are views (R119, log 13). -/
structure TimeBase where
  value : TimeValue
  sub : Fin 4000000000
  epoch : Epoch
  state : TimeState
  f : Int
  p : Int
  slew : Option SlewFlight
  localCount : LocalCount
deriving DecidableEq, Repr

/-- The cause of a change of time-base state (R120). -/
inductive StateCause where
  | timeSet
  | referenceFollowed
  | referenceLost
  | holdoverLimit
  | policyNone
deriving DecidableEq, Repr

/-- The cause of a step (R135). -/
inductive StepCause where
  | set
  | adjust
  | discipline
deriving DecidableEq, Repr

/-- The cause of a slew's end (R128). -/
inductive SlewEndCause where
  | complete
  | replaced
  | cancelled
  | stepped
  | tracking
deriving DecidableEq, Repr

/-- A monitor's state by name (R138). -/
inductive MonitorState where
  | off
  | absent
  | qualifying
  | qualified
deriving DecidableEq, Repr

/-- A monitor's state with what it holds in it: k and the last accepted pulse in QUALIFYING, the last accepted pulse and early pending
in QUALIFIED (table of the reference monitors). -/
inductive Watch where
  | off
  | absent
  | qualifying (k : Nat) (last : LocalCount)
  | qualified (last : LocalCount) (earlyPending : Bool)
deriving DecidableEq, Repr

/-- One reference monitor (R138 to R144); the deskew is in quarter-nanoseconds. -/
structure Monitor where
  enable : Bool
  edge : Edge
  deskew : Nat
  watch : Watch
  earlyPulses : Counter
deriving DecidableEq, Repr

/-- The two reference monitors. -/
structure Monitors where
  a : Monitor
  b : Monitor
deriving DecidableEq, Repr

/-- The cause of a change of monitor state (R143). -/
inductive MonitorCause where
  | enabled
  | disabled
  | firstPulse
  | qualified
  | early
  | timeout
  | edgeChanged
deriving DecidableEq, Repr

/-- The cause of a switch of the followed reference (R147). -/
inductive SwitchCause where
  | policy
  | qualified
  | lost
deriving DecidableEq, Repr

/-- The cause of a measurement's end (R156). -/
inductive MeasureCause where
  | complete
  | lost
  | cancelled
  | disabled
deriving DecidableEq, Repr

/-- A policy (R146). -/
inductive Policy where
  | none
  | a
  | b
  | aThenB
  | bThenA
deriving DecidableEq, Repr

/-- The discipline parameters (R145): W and T in µs, S and H in s. -/
structure DisciplineParams where
  window : Nat
  count : Nat
  settle : Nat
  threshold : Nat
  stepPermitted : Bool
  holdoverLimit : Nat
deriving DecidableEq, Repr

/-- A measurement in flight (R154, R155): `first` is the local count of its first pulse, `span` is D. -/
structure Measurement where
  ref : RefId
  n : Nat
  intervals : Nat
  first : Option LocalCount
  span : LocalCount
deriving DecidableEq, Repr

/-- The discipline unit (R145 to R158). -/
structure Discipline where
  params : DisciplineParams
  policy : Policy
  followed : Option RefId
  holdoverEntry : Option LocalCount
  measurement : Option Measurement
  largeErrors : Counter
deriving DecidableEq, Repr

/-! ## Records and the record queue -/

/-- The fields of an ARRIVAL record (R90). -/
structure ArrivalReport where
  feed : FeedId
  number : SeqNum
  status : TwinStatus
  flags : RecordFlags
  first : FrameCopy
  format : SendFormat
  twin : Option Twin
  skew : Option (BitVec 32)
deriving DecidableEq, Repr

/-- The fields of a STATS record (R175). -/
structure StatsReport where
  feed : FeedId
  state : FeedState
  index : BitVec 32
  counters : FeedCounters
  holdLength : Nat
  gapCount : Nat
  candidatePresent : Bool
deriving DecidableEq, Repr

/-- The body of an ordinary record, by kind and TIME subkind (R204). -/
inductive RecordBody where
  | arrival (report : ArrivalReport)
  | gap (feed : FeedId) (cause : GapCause) (first last : SeqNum) (opened : Stamp)
  | restart (feed : FeedId) (oldE newBase : SeqNum) (candidate : Stamp)
  | leg (feed : FeedId) (leg : Leg) (old new : LegState)
  | line (line : LineId) (old new : LineState) (cause : LineCause)
  | step (cause : StepCause) (old new : TimeValue) (newEpoch : Epoch)
  | state (old new : TimeState) (cause : StateCause)
  | slewEnd (cause : SlewEndCause) (requested applied : Int) (rate : Nat)
  | reference (ref : RefId) (old new : MonitorState) (cause : MonitorCause)
  | switch (old new : Option RefId) (cause : SwitchCause)
  | measureEnd (ref : RefId) (cause : MeasureCause) (n intervals : Nat) (result : Option Int)
  | stats (report : StatsReport)
deriving DecidableEq, Repr

/-- An ordinary record: its header stamp and its body (R203, R204). -/
structure Record where
  stamp : Stamp
  body : RecordBody
deriving DecidableEq, Repr

/-- An OVERFLOW marker (R162); bit n of `kinds` is record kind code n + 1 (R195). -/
structure Marker where
  lost : BitVec 32
  first : Stamp
  last : Stamp
  kinds : BitVec 8
deriving DecidableEq, Repr

/-- An entry of the record queue (R159). -/
inductive Entry where
  | record (r : Record)
  | marker (m : Marker)
deriving DecidableEq, Repr

/-- The record queue (R159 to R176), oldest entry first; the statistics period is in seconds. -/
structure RecordQueue where
  entries : List Entry
  offered : Total
  delivered : Total
  lost : Total
  threshold : Nat
  armed : Bool
  period : Nat
  statsDeadline : Option LocalCount
  periodIndex : BitVec 32
deriving DecidableEq, Repr

/-! ## Notices and the link -/

/-- A notice source, in priority order (R185). -/
inductive NoticeId where
  | overflow
  | timeState
  | reference
  | queueWarning
  | line
  | leg
  | opDone
  | linkError
deriving DecidableEq, Repr

/-- What a notice source has collected (R186); `empty` for a source without a summary, or with nothing collected. -/
inductive Summary where
  | empty
  | timeState (state : TimeState)
  | monitors (a b : MonitorState)
  | lines (set : BitVec 8)
  | feeds (set : BitVec 16)
deriving DecidableEq, Repr

/-- One entry of the notice table (R186). -/
structure NoticeSource where
  enabled : Bool
  pending : Bool
  occurrences : BitVec 8
  summary : Summary
deriving DecidableEq, Repr

/-- The notice table (R186). -/
structure NoticeTable where
  overflow : NoticeSource
  timeState : NoticeSource
  reference : NoticeSource
  queueWarning : NoticeSource
  line : NoticeSource
  leg : NoticeSource
  opDone : NoticeSource
  linkError : NoticeSource
deriving DecidableEq, Repr

/-- A result code (R7). -/
inductive ResultCode where
  | ok
  | busy
  | state
  | range
  | unknown
  | length
deriving DecidableEq, Repr

/-- A result: the tag and kind it echoes, its code, and the bytes of its fields (R200, R201). -/
structure Result where
  tag : Byte
  kind : Byte
  code : ResultCode
  fields : List Byte
deriving DecidableEq, Repr

/-- How a fetch ends with a result (R170). -/
inductive FetchEnd where
  | count
  | empty
  | halted
deriving DecidableEq, Repr

/-- A fetch in progress (R166): `n` is 0 for an unbounded one; `halts` are the tags of the HALTs taken, oldest first, and the fetch is
halting when there is one (R171). -/
structure Fetch where
  tag : Byte
  n : Nat
  sent : BitVec 32
  halts : List Byte
deriving DecidableEq, Repr

/-- A request in EXECUTING, handed to its owning block (R181, R182); `lost` says that the link has gone DOWN since, so that its result will be
discarded (R185). -/
structure Request where
  kind : Byte
  tag : Byte
  payload : List Byte
  lost : Bool
deriving DecidableEq, Repr

/-- The request engine (R181); EXECUTING carries the request handed over, DELIVERING the running fetch (R166). -/
inductive Engine where
  | idle
  | executing (request : Request)
  | delivering (fetch : Fetch)
deriving DecidableEq, Repr

/-- The inbound framer (R178); RECEIVING carries the bytes collected after the start byte, in the order received. -/
inductive Framer where
  | ignoring
  | hunting
  | receiving (collected : List Byte)
deriving DecidableEq, Repr

/-- A reset cause, as the START frame reports it (R193). -/
inductive ResetCause where
  | powerOn
  | resetLine
  | supplyDip
  | restartRequest
deriving DecidableEq, Repr

/-- The kind of an outbound frame; NOTICE keeps the contents the frame carries, for R188. -/
inductive OutKind where
  | start
  | result
  | notice (source : NoticeId) (occurrences : BitVec 8) (summary : Summary)
  | record
deriving DecidableEq, Repr

/-- The outbound frame in progress: its kind and its bytes (R177, R183). -/
structure OutFrame where
  kind : OutKind
  bytes : List Byte
deriving DecidableEq, Repr

/-- The link interface (R177 to R194), the notice table apart. -/
structure LinkInterface where
  up : Bool
  framer : Framer
  engine : Engine
  queued : List Result
  owed : Nat
  outFrame : Option OutFrame
  startOwed : Option ResetCause
  linkErrors : BitVec 32
  restartDue : Bool
deriving DecidableEq, Repr

/-! ## Pins and reset -/

/-- The external level inputs: SD0 to SD7 and the link's signal detect (R10, R184). -/
structure Pins where
  sd : Vector Bool 8
  linkSd : Bool
deriving DecidableEq, Repr

/-- Whether the whole part is held in reset, and the causes that arose since it last left reset (R192). -/
structure ResetHold where
  held : Bool
  powerOn : Bool
  supplyDip : Bool
  lineReset : Bool
deriving DecidableEq, Repr

end Sys2Proof.Machine
end

