-- ==== Sys2Proof/Machine/Layout.lean ====
section
/-! DEFINITION. The byte layouts of the chapter Frame and Record Layouts: codes (R197), blocks (R195), optional fields (R196) and record
entries (R203, R204). The results' layouts (R201) stand with the requests that build them. -/

namespace Sys2Proof.Machine

/-! ## Codes (R197) -/

def boolCode (b : Bool) : Byte := if b then 1 else 0

def legCode : Leg → Byte
  | .a => 0
  | .b => 1

def Leg.ofCode : Nat → Option Leg
  | 0 => some .a
  | 1 => some .b
  | _ => none

def ByteOrder.code : ByteOrder → Byte
  | .big => 0
  | .little => 1

def ByteOrder.ofCode : Nat → Option ByteOrder
  | 0 => some .big
  | 1 => some .little
  | _ => none

def Edge.ofCode : Nat → Option Edge
  | 0 => some .rising
  | 1 => some .falling
  | _ => none

def refCode : Option RefId → Byte
  | none => 0
  | some .a => 1
  | some .b => 2

/-- A reference named in a request: NONE is out of range (R199). -/
def RefId.ofCode : Nat → Option RefId
  | 1 => some .a
  | 2 => some .b
  | _ => none

def LineState.code : LineState → Byte
  | .disabled => 0
  | .down => 1
  | .integrating => 2
  | .active => 3

def LineCause.code : LineCause → Byte
  | .enabled => 1
  | .disabled => 2
  | .signalLost => 3
  | .signalBack => 4
  | .integrated => 5
  | .badRun => 6

def FeedState.code : FeedState → Byte
  | .closed => 0
  | .armed => 1
  | .running _ => 2

def LegState.code : LegState → Byte
  | .none => 0
  | .waiting => 1
  | .active => 2
  | .silent => 3

def SendFormat.code : SendFormat → Byte
  | .none => 0
  | .dayNs => 1
  | .scaleNs => 2
  | .dayDec => 3

def SendFormat.ofCode : Nat → Option SendFormat
  | 0 => some .none
  | 1 => some .dayNs
  | 2 => some .scaleNs
  | 3 => some .dayDec
  | _ => Option.none

def SendStatus.code : SendStatus → Byte
  | .none => 0
  | .valid => 1
  | .outOfWindow => 2
  | .badDigits => 3
  | .outOfRange => 4

def TwinStatus.code : TwinStatus → Byte
  | .paired => 1
  | .timeout => 2
  | .closed => 3
  | .restart => 4
  | .aged => 5
  | .notHeld => 6

def GapCause.code : GapCause → Byte
  | .timeout => 1
  | .listFull => 2
  | .aged => 3
  | .restart => 4
  | .closed => 5

def TimeState.code : TimeState → Byte
  | .unset => 0
  | .free => 1
  | .tracking => 2
  | .holdover => 3

def StateCause.code : StateCause → Byte
  | .timeSet => 1
  | .referenceFollowed => 2
  | .referenceLost => 3
  | .holdoverLimit => 4
  | .policyNone => 5

def StepCause.code : StepCause → Byte
  | .set => 1
  | .adjust => 2
  | .discipline => 3

def SlewEndCause.code : SlewEndCause → Byte
  | .complete => 1
  | .replaced => 2
  | .cancelled => 3
  | .stepped => 4
  | .tracking => 5

def MonitorState.code : MonitorState → Byte
  | .off => 0
  | .absent => 1
  | .qualifying => 2
  | .qualified => 3

def MonitorCause.code : MonitorCause → Byte
  | .enabled => 1
  | .disabled => 2
  | .firstPulse => 3
  | .qualified => 4
  | .early => 5
  | .timeout => 6
  | .edgeChanged => 7

def SwitchCause.code : SwitchCause → Byte
  | .policy => 1
  | .qualified => 2
  | .lost => 3

def MeasureCause.code : MeasureCause → Byte
  | .complete => 1
  | .lost => 2
  | .cancelled => 3
  | .disabled => 4

def Policy.code : Policy → Byte
  | .none => 0
  | .a => 1
  | .b => 2
  | .aThenB => 3
  | .bThenA => 4

def Policy.ofCode : Nat → Option Policy
  | 0 => some .none
  | 1 => some .a
  | 2 => some .b
  | 3 => some .aThenB
  | 4 => some .bThenA
  | _ => Option.none

def ResultCode.code : ResultCode → Byte
  | .ok => 0
  | .busy => 1
  | .state => 2
  | .range => 3
  | .unknown => 4
  | .length => 5

def FetchEnd.code : FetchEnd → Byte
  | .count => 1
  | .empty => 2
  | .halted => 3

def ResetCause.code : ResetCause → Byte
  | .powerOn => 1
  | .resetLine => 2
  | .supplyDip => 3
  | .restartRequest => 4

def NoticeId.code : NoticeId → Byte
  | .overflow => 1
  | .timeState => 2
  | .reference => 3
  | .queueWarning => 4
  | .line => 5
  | .leg => 6
  | .opDone => 7
  | .linkError => 8

/-- The record kind code of a body, 1 to 7 (R197). -/
def RecordBody.kindCode : RecordBody → Nat
  | .arrival _ => 1
  | .gap _ _ _ _ _ => 2
  | .restart _ _ _ _ => 3
  | .leg _ _ _ _ => 4
  | .line _ _ _ _ => 5
  | .step _ _ _ _ => 6
  | .state _ _ _ => 6
  | .slewEnd _ _ _ _ => 6
  | .reference _ _ _ _ => 6
  | .switch _ _ _ => 6
  | .measureEnd _ _ _ _ _ => 6
  | .stats _ => 7

/-- The TIME subkind code of a body, and 0, unused, for the other kinds (R197, R203). -/
def RecordBody.subkindCode : RecordBody → Nat
  | .arrival _ => 0
  | .gap _ _ _ _ _ => 0
  | .restart _ _ _ _ => 0
  | .leg _ _ _ _ => 0
  | .line _ _ _ _ => 0
  | .step _ _ _ _ => 1
  | .state _ _ _ => 2
  | .slewEnd _ _ _ _ => 3
  | .reference _ _ _ _ => 4
  | .switch _ _ _ => 5
  | .measureEnd _ _ _ _ _ => 6
  | .stats _ => 0

/-- The kind code of an OVERFLOW entry (R197). -/
def markerKindCode : Nat := 8

/-! ## Outbound frame kinds (R197) -/

def resultFrameKind : Byte := 0x80
def recordFrameKind : Byte := 0x81
def noticeFrameKind : Byte := 0x82
def startFrameKind : Byte := 0x83

/-! ## Blocks and optional fields (R195, R196) -/

/-- The time-value block, 13 bytes. -/
def TimeValue.block (t : TimeValue) : List Byte :=
  leBytes 8 t.seconds.toNat ++ leBytes 4 t.nanos.val ++ leBytes 1 t.quarters.val

/-- The stamp block, 16 bytes. -/
def Stamp.block (s : Stamp) : List Byte :=
  s.value.block ++ [s.state.code] ++ leBytes 2 s.epoch.toNat

/-- An optional unsigned field of n bytes: the presence byte, then the field, zero when absent (R196). -/
def optField (n : Nat) (v : Option Nat) : List Byte :=
  boolCode v.isSome :: leBytes n (v.getD 0)

/-- An optional signed field of n bytes (R196). -/
def optSigned (n : Nat) (v : Option Int) : List Byte :=
  boolCode v.isSome :: leSigned n (v.getD 0)

/-- n unused bytes, sent as zero (R196). -/
def zeros (n : Nat) : List Byte := List.replicate n 0

/-- The sixteen counters of R58 in order. -/
def FeedCounters.toList (c : FeedCounters) : List Counter :=
  [c.copiesA, c.copiesB, c.firstCopies, c.twins, c.repeats, c.lateFills, c.lateCopies, c.gapsOpened, c.gapsFilled, c.numbersLost,
    c.restarts, c.strays, c.notHeld, c.wonA, c.wonB, c.whileClosed]

/-- Counters of four bytes each, one after another. -/
def counterBytes (cs : List Counter) : List Byte := cs.flatMap fun c => leBytes 4 c.toNat

/-! ## Record entries (R203, R204) -/

/-- The flags byte of an ARRIVAL record: LATE_FILL 1, REPEAT_SEEN 2, MARK 4, RESTART_BASE 8 (R204). -/
def RecordFlags.byte (f : RecordFlags) : Byte :=
  (if f.lateFill then 1 else 0) + (if f.repeatSeen then 2 else 0) + (if f.mark then 4 else 0) + (if f.restartBase then 8 else 0)

/-- The body of an ARRIVAL record (R204). -/
def ArrivalReport.bytes (a : ArrivalReport) : List Byte :=
  [BitVec.ofNat 8 a.feed.val, legCode a.first.leg, BitVec.ofNat 8 a.first.line.val, a.status.code, a.flags.byte, boolCode a.first.mark,
    a.format.code, a.first.sendStatus.code] ++
  leBytes 4 a.number.toNat ++ leBytes 2 a.first.frameLength ++
  optField 8 (a.first.sendTime.map BitVec.toNat) ++ optSigned 8 a.first.latency ++
  (match a.twin with
   | some t => 1 :: BitVec.ofNat 8 t.line.val :: t.stamp.block
   | none => zeros 18) ++
  optField 4 (a.skew.map BitVec.toNat)

/-- The body of a STATS record (R204). -/
def StatsReport.bytes (r : StatsReport) : List Byte :=
  [BitVec.ofNat 8 r.feed.val, r.state.code, BitVec.ofNat 8 r.gapCount, boolCode r.candidatePresent] ++
  leBytes 4 r.index.toNat ++ leBytes 2 r.holdLength ++ counterBytes r.counters.toList

/-- The count of a range, (last − first) mod 2^32 + 1 (R103), as a four-byte field. -/
def rangeCount (first last : SeqNum) : Counter := last - first + 1

/-- The body of an ordinary record, from offset 20 (R204). -/
def RecordBody.bytes : RecordBody → List Byte
  | .arrival report => report.bytes
  | .gap feed cause first last opened =>
    [BitVec.ofNat 8 feed.val, cause.code] ++ leBytes 4 first.toNat ++ leBytes 4 last.toNat ++
      leBytes 4 (rangeCount first last).toNat ++ opened.block
  | .restart feed oldE newBase candidate =>
    [BitVec.ofNat 8 feed.val] ++ leBytes 4 oldE.toNat ++ leBytes 4 newBase.toNat ++ candidate.block
  | .leg feed which old new => [BitVec.ofNat 8 feed.val, legCode which, old.code, new.code]
  | .line id old new cause => [BitVec.ofNat 8 id.val, old.code, new.code, cause.code]
  | .step cause old new newEpoch => [cause.code] ++ old.block ++ new.block ++ leBytes 2 newEpoch.toNat
  | .state old new cause => [old.code, new.code, cause.code]
  | .slewEnd cause requested applied rate =>
    [cause.code] ++ leSigned 4 requested ++ leSigned 4 applied ++ leBytes 4 rate
  | .reference ref old new cause => [refCode (some ref), old.code, new.code, cause.code]
  | .switch old new cause => [refCode old, refCode new, cause.code]
  | .measureEnd ref cause n intervals result =>
    [refCode (some ref), cause.code, BitVec.ofNat 8 n, BitVec.ofNat 8 intervals] ++ optSigned 4 result
  | .stats report => report.bytes

/-- The body of an OVERFLOW entry (R204). -/
def Marker.bytes (m : Marker) : List Byte := [m.kinds] ++ leBytes 4 m.lost.toNat ++ m.last.block

/-- An entry with its common record header (R203). -/
def entryBytes (kind subkind : Nat) (stamp : Stamp) (body : List Byte) : List Byte :=
  [BitVec.ofNat 8 kind, BitVec.ofNat 8 subkind] ++ leBytes 2 (20 + body.length) ++ stamp.block ++ body

/-- The bytes of an entry of the record queue (R203, R204). -/
def Entry.bytes : Entry → List Byte
  | .record r => entryBytes r.body.kindCode r.body.subkindCode r.stamp r.body.bytes
  | .marker m => entryBytes markerKindCode 0 m.first m.bytes

/-! ## START, NOTICE and RESULT payloads (R200, R202) -/

/-- The START payload, 5 bytes (R202). -/
def startPayload (cause : ResetCause) (state : TimeState) : List Byte :=
  leBytes 2 Config.partCode ++ leBytes 1 Config.revision ++ [cause.code, state.code]

/-- The two summary bytes of a NOTICE payload (R202). -/
def Summary.bytes : Summary → List Byte
  | .empty => [0, 0]
  | .timeState s => [s.code, 0]
  | .monitors a b => [a.code, b.code]
  | .lines set => [set, 0]
  | .feeds set => leBytes 2 set.toNat

/-- The NOTICE payload, 4 bytes (R202). -/
def noticePayload (source : NoticeId) (occurrences : BitVec 8) (summary : Summary) : List Byte :=
  [source.code, occurrences] ++ summary.bytes

/-- The RESULT payload: code, echoed kind, fields (R200, R201). -/
def Result.payload (r : Result) : List Byte := r.code.code :: r.kind :: r.fields

end Sys2Proof.Machine
end

