-- ==== Sys2Proof/Machine/ResetValues.lean ====
section
/-! DEFINITION. What each block holds after a reset, from the reset rules of the chapters (R29, R46, R61, R114, R136, R158, R176, R194). -/

namespace Sys2Proof.Machine

/-- The defaults of a line's configuration (table under Configuration and requests, R29). -/
def LineConfig.reset : LineConfig :=
  { deskew := 0, integration := 10, minLength := 60, maxLength := 1522, badRunLimit := 8 }

/-- Every counter of a line port at 0 (R28). -/
def LineCounters.reset : LineCounters :=
  { started := 0, accepted := 0, badCheck := 0, runts := 0, giants := 0, discards := 0, aborted := 0, overruns := 0 }

/-- A line port after any reset (R29); the signal level is what the input shows (R10). -/
def LinePort.reset (signal : Bool) : LinePort :=
  { state := .disabled, signal := signal, config := .reset, quiet := none, badRun := 0, frame := none, fifo := [], counters := .reset }

/-- The eight line ports after any reset. -/
def linesReset (pins : Pins) : Vector LinePort 8 :=
  #v[.reset pins.sd[0], .reset pins.sd[1], .reset pins.sd[2], .reset pins.sd[3],
    .reset pins.sd[4], .reset pins.sd[5], .reset pins.sd[6], .reset pins.sd[7]]

/-- A selector entry after a reset or a clear (R32). -/
def Selector.reset : Selector :=
  { valid := false, lineSet := 0, offset := 0, width := 1, mask := 0, value := 0, feed := 0, leg := .a, mark := false }

/-- The classifier and the ingress arbiter after any reset (R46). -/
def Classifier.reset : Classifier :=
  { selectors := Vector.replicate 32 .reset, unclaimed := Vector.replicate 8 0, short := Vector.replicate 8 0, lastServed := 7, firstIn := none,
    held := none }

/-- The default profile (table under The profile, R48). -/
def Profile.reset : Profile :=
  { seqOffset := 0, seqWidth := 4, seqOrder := .big, sendOffset := 0, sendFormat := .none, sendOrder := .big,
    pairing := 500, gap := 2000, silence := 1000, jumpLimit := 65536 }

/-- Every counter of a feed at 0 (R60). -/
def FeedCounters.reset : FeedCounters :=
  { copiesA := 0, copiesB := 0, firstCopies := 0, twins := 0, repeats := 0, lateFills := 0, lateCopies := 0, gapsOpened := 0,
    gapsFilled := 0, numbersLost := 0, restarts := 0, strays := 0, notHeld := 0, wonA := 0, wonB := 0, whileClosed := 0 }

/-- A leg of a CLOSED feed: no state and no timer (R61). -/
def LegWatch.none : LegWatch := { state := .none, deadline := Option.none }

/-- A feed after any reset (R61, R114). -/
def Feed.reset : Feed :=
  { state := .closed, profile := .reset, legA := .none, legB := .none, hold := [], gaps := [], candidate := none, counters := .reset }

/-- Time value 0 (R136). -/
def TimeValue.zero : TimeValue := { seconds := 0, nanos := 0, quarters := 0 }

/-- The time base after a whole-part reset (R136). -/
def TimeBase.reset : TimeBase :=
  { value := .zero, sub := 0, epoch := 0, state := .unset, f := 0, p := 0, slew := none, localCount := 0 }

/-- A monitor after a whole-part reset (R158). -/
def Monitor.reset : Monitor := { enable := false, edge := .rising, deskew := 0, watch := .off, earlyPulses := 0 }

/-- The default discipline parameters (table under Discipline parameters). -/
def DisciplineParams.reset : DisciplineParams :=
  { window := 100, count := 4, settle := 8, threshold := 1000, stepPermitted := true, holdoverLimit := 0 }

/-- The discipline unit after a whole-part reset (R158). -/
def Discipline.reset : Discipline :=
  { params := .reset, policy := .none, followed := none, holdoverEntry := none, measurement := none, largeErrors := 0 }

/-- The record queue after any reset (R176). -/
def RecordQueue.reset : RecordQueue :=
  { entries := [], offered := 0, delivered := 0, lost := 0, threshold := 3072, armed := true, period := 0,
    statsDeadline := none, periodIndex := 0 }

/-- A notice source after any reset (R194). -/
def NoticeSource.reset : NoticeSource := { enabled := true, pending := false, occurrences := 0, summary := .empty }

/-- The notice table after any reset (R194). -/
def NoticeTable.reset : NoticeTable :=
  { overflow := .reset, timeState := .reset, reference := .reset, queueWarning := .reset, line := .reset, leg := .reset,
    opDone := .reset, linkError := .reset }

/-- The link interface after a reset: a START frame is owed with its cause, and the link state is read from the input (R194). -/
def LinkInterface.reset (pins : Pins) (cause : ResetCause) : LinkInterface :=
  { up := pins.linkSd, framer := .ignoring, engine := .idle, queued := [], owed := 0, outFrame := none, startOwed := some cause,
    linkErrors := 0, restartDue := false }

/-- The external inputs the model assumes at State.reset: no signal on any line and none on the link.
DESIGN CHOICE (log 2): the manual leaves the level of an input to the outside. -/
def Pins.reset : Pins := { sd := Vector.replicate 8 false, linkSd := false }

/-- The part is not held in reset and no cause has arisen since it left (R192). -/
def ResetHold.released : ResetHold := { held := false, powerOn := false, supplyDip := false, lineReset := false }

end Sys2Proof.Machine
end

