-- ==== Sys2Proof/Machine/State.lean ====
section
/-! DEFINITION. The state of the block, the ways a step can stop, and the state after reset. -/

namespace Sys2Proof.Machine

/-- The part has no fault that stops it: bad input is answered, counted or reported, so no meaning and no step raises a fault.
The inductive is closed and has no constructor; that is safe, since nothing is stopped. -/
inductive Fault where
deriving DecidableEq, Repr

/-- The refusals. -/
inductive Refusal where
  /-- Raised by an arm of exec whose command has no meaning yet, and by nothing else; safe. No arm raises it now. -/
  | notModelled (mnemonic : String)
deriving DecidableEq, Repr

/-- The part, and the commands waiting for it. -/
structure State where
  /-- The level inputs (R10, R184). -/
  pins : Pins
  /-- The hold of a whole-part reset (R192). -/
  resetHold : ResetHold
  /-- The line ports L0 to L7 (R10). -/
  lines : Vector LinePort 8
  /-- The ingress arbiter and the classifier (R30). -/
  classifier : Classifier
  /-- The feed records F0 to F15 (R47). -/
  feeds : Vector Feed 16
  /-- The time base (R115). -/
  time : TimeBase
  /-- The reference monitors (R138). -/
  monitors : Monitors
  /-- The discipline unit (R145). -/
  discipline : Discipline
  /-- The record queue (R159). -/
  queue : RecordQueue
  /-- The notice table (R186). -/
  notices : NoticeTable
  /-- The link interface (R177). -/
  link : LinkInterface
  /-- The commands waiting, first in, first out; no state of the part (log 24). -/
  pending : List Instr
deriving DecidableEq, Repr

/-- The whole part at its reset values (R8, R29, R46, R61, R136, R158, R176, R194), with the inputs as they stand. -/
def State.fresh (pins : Pins) (resetHold : ResetHold) (cause : ResetCause) (pending : List Instr) : State :=
  { pins := pins
    resetHold := resetHold
    lines := linesReset pins
    classifier := .reset
    feeds := Vector.replicate 16 .reset
    time := .reset
    monitors := { a := .reset, b := .reset }
    discipline := .reset
    queue := .reset
    notices := .reset
    link := .reset pins cause
    pending := pending }

/-- The part right after it has left a power-on reset, with no command waiting. DESIGN CHOICE: which of the four resets it was (log 1),
and the levels of the inputs (log 2). -/
def State.reset : State := State.fresh Pins.reset ResetHold.released .powerOn []

end Sys2Proof.Machine
end

