-- ==== Sys2Proof/Machine/Flags.lean ====
section
/-! DEFINITION. The flags the part keeps for the host: the notice sources' pending and enabled flags, occurrences and summaries
(R185 to R189). -/

namespace Sys2Proof.Machine

/-- The sources in priority order (R185). -/
def NoticeId.all : List NoticeId :=
  [.overflow, .timeState, .reference, .queueWarning, .line, .leg, .opDone, .linkError]

/-- The entry of a source. -/
def NoticeTable.get (t : NoticeTable) : NoticeId → NoticeSource
  | .overflow => t.overflow
  | .timeState => t.timeState
  | .reference => t.reference
  | .queueWarning => t.queueWarning
  | .line => t.line
  | .leg => t.leg
  | .opDone => t.opDone
  | .linkError => t.linkError

/-- The table with one source's entry replaced. -/
def NoticeTable.set (t : NoticeTable) (id : NoticeId) (src : NoticeSource) : NoticeTable :=
  match id with
  | .overflow => { t with overflow := src }
  | .timeState => { t with timeState := src }
  | .reference => { t with reference := src }
  | .queueWarning => { t with queueWarning := src }
  | .line => { t with line := src }
  | .leg => { t with leg := src }
  | .opDone => { t with opDone := src }
  | .linkError => { t with linkError := src }

/-- A later summary merged into an earlier one: sets are joined, a state replaces the state held (R186). -/
def Summary.merge (held later : Summary) : Summary :=
  match held, later with
  | .lines x, .lines y => .lines (x ||| y)
  | .feeds x, .feeds y => .feeds (x ||| y)
  | held, .empty => held
  | _, later => later

/-- Occurrences added up, staying at 255 (R186, R188). -/
def addOccurrences (x y : BitVec 8) : BitVec 8 :=
  if x.toNat + y.toNat ≤ 255 then x + y else 255

/-- A raise of a source (R186). -/
def NoticeSource.raise (src : NoticeSource) (summary : Summary) : NoticeSource :=
  { src with
    pending := true
    occurrences := addOccurrences src.occurrences 1
    summary := src.summary.merge summary }

/-- A source whose frame has just been chosen (R187). -/
def NoticeSource.clear (src : NoticeSource) : NoticeSource :=
  { src with pending := false, occurrences := 0, summary := .empty }

/-- The contents of an abandoned frame merged back into their source (R188): the frame's contents are the earlier ones, so a state raised
since stands. -/
def NoticeSource.mergeBack (src : NoticeSource) (occurrences : BitVec 8) (summary : Summary) : NoticeSource :=
  { src with
    pending := true
    occurrences := addOccurrences occurrences src.occurrences
    summary := summary.merge src.summary }

/-- A raise of one source of the table (R186). -/
def NoticeTable.raise (t : NoticeTable) (id : NoticeId) (summary : Summary) : NoticeTable :=
  t.set id ((t.get id).raise summary)

/-- The first source, by priority, that is both pending and enabled (R183). -/
def NoticeTable.ready (t : NoticeTable) : Option NoticeId :=
  NoticeId.all.find? fun id => (t.get id).pending && (t.get id).enabled

/-- A set of sources as a byte, OVERFLOW in bit 0 and LINK_ERROR in bit 7 (R195). -/
def sourceSet (member : NoticeSource → Bool) (t : NoticeTable) : Byte :=
  BitVec.ofNat 8 ((NoticeId.all.map fun id => if member (t.get id) then 2 ^ ((NoticeId.code id).toNat - 1) else 0).sum)

/-- The enabled flags of the eight sources, as a set (R190). -/
def NoticeTable.enabledSet (t : NoticeTable) : Byte := sourceSet NoticeSource.enabled t

/-- The pending flags of the eight sources, as a set (R189, R190). -/
def NoticeTable.pendingSet (t : NoticeTable) : Byte := sourceSet NoticeSource.pending t

/-- The enabled flag of every source replaced by its bit of a set (R189). -/
def NoticeTable.enable (t : NoticeTable) (set : Byte) : NoticeTable :=
  { overflow := { t.overflow with enabled := set.getLsbD 0 }
    timeState := { t.timeState with enabled := set.getLsbD 1 }
    reference := { t.reference with enabled := set.getLsbD 2 }
    queueWarning := { t.queueWarning with enabled := set.getLsbD 3 }
    line := { t.line with enabled := set.getLsbD 4 }
    leg := { t.leg with enabled := set.getLsbD 5 }
    opDone := { t.opDone with enabled := set.getLsbD 6 }
    linkError := { t.linkError with enabled := set.getLsbD 7 } }

/-- A block raises a notice source (R186). -/
def State.raise (id : NoticeId) (summary : Summary) (s : State) : State :=
  { s with notices := s.notices.raise id summary }

end Sys2Proof.Machine
end

