-- ==== Sys2Proof/Machine/Ops.lean ====
section
/-! DEFINITION. The operations the blocks share: serial comparisons, deadlines, time values and readings, access to State by line, feed and
reference, offering a record, replies to requests, and the hold in reset. -/

namespace Sys2Proof.Machine

/-! ## Serial numbers (R1, R2) -/

/-- The distance d from E to s (R1). -/
def distance (e s : SeqNum) : Nat := (s - e).toNat

/-- The distance by which s lies behind E, and none when it does not (R1). -/
def behind (e s : SeqNum) : Option Nat :=
  if 2 ^ 31 ≤ distance e s then some (2 ^ 32 - distance e s) else none

/-- The epoch e2 is later than e1 (R2). -/
def laterEpoch (e1 e2 : Epoch) : Bool :=
  decide (1 ≤ (e2 - e1).toNat ∧ (e2 - e1).toNat < 2 ^ 15)

/-! ## Deadlines on the local count (R4) -/

/-- A deadline is at or before now. DEDUCED (log 9): across the wrap of the local count the comparison is serial. -/
def reached (deadline now : LocalCount) : Bool := decide ((now - deadline).toNat < 2 ^ 63)

/-- A deadline that exists and is at or before now. -/
def due (deadline : Option LocalCount) (now : LocalCount) : Bool :=
  match deadline with
  | some d => reached d now
  | none => false

/-- Now plus an interval in nanoseconds (R4). -/
def after (now : LocalCount) (ns : Nat) : LocalCount := now + BitVec.ofNat 64 ns

/-! ## Time values (R3) -/

/-- A time value in quarter-nanoseconds from 0. -/
def TimeValue.toQuarters (t : TimeValue) : Nat :=
  (t.seconds.toNat * 1000000000 + t.nanos.val) * 4 + t.quarters.val

/-- The number of time values: 2^48 s in quarter-nanoseconds. -/
def timeModulus : Nat := 2 ^ 48 * 4000000000

/-- The time value of a number of quarter-nanoseconds, the seconds wrapping at 2^48 (R3). -/
def TimeValue.ofQuarters (n : Nat) : TimeValue :=
  { seconds := BitVec.ofNat 48 (n / 4000000000)
    nanos := Fin.ofNat 1000000000 (n / 4)
    quarters := Fin.ofNat 4 n }

/-- A signed number of quarter-nanoseconds added to a time value, with carries and borrows, the seconds modulo 2^48 (R3, R18, R124). -/
def TimeValue.add (t : TimeValue) (d : Int) : TimeValue :=
  .ofQuarters ((t.toQuarters + d) % timeModulus).toNat

/-- A stamp less a deskew in quarter-nanoseconds; its epoch and state are kept (R18). -/
def Stamp.less (s : Stamp) (deskew : Nat) : Stamp := { s with value := s.value.add (-deskew) }

/-- A value limited to the range −x to +x (R6). -/
def clamp (x v : Int) : Int := max (-x) (min x v)

/-! ## Access to State -/

/-- The local count now (R4). -/
def State.now (s : State) : LocalCount := s.time.localCount

/-- The reading of the time base (R116). -/
def State.reading (s : State) : Stamp :=
  { value := s.time.value, epoch := s.time.epoch, state := s.time.state }

def State.line (s : State) (i : LineId) : LinePort := s.lines[i]

def State.setLine (i : LineId) (p : LinePort) (s : State) : State :=
  { s with lines := s.lines.set i.val p i.isLt }

def State.feed (s : State) (i : FeedId) : Feed := s.feeds[i]

def State.setFeed (i : FeedId) (f : Feed) (s : State) : State :=
  { s with feeds := s.feeds.set i.val f i.isLt }

/-- A feed record changed in place. -/
def State.onFeed (i : FeedId) (g : Feed → Feed) (s : State) : State := s.setFeed i (g (s.feed i))

/-- The counters of a feed record changed in place. -/
def State.count (i : FeedId) (g : FeedCounters → FeedCounters) (s : State) : State :=
  s.onFeed i fun f => { f with counters := g f.counters }

def State.setHold (i : FeedId) (hold : List HeldRecord) (s : State) : State :=
  s.onFeed i fun f => { f with hold := hold }

def State.setGaps (i : FeedId) (gaps : List GapRange) (s : State) : State :=
  s.onFeed i fun f => { f with gaps := gaps }

def State.setCandidate (i : FeedId) (c : Option HeldRecord) (s : State) : State :=
  s.onFeed i fun f => { f with candidate := c }

def State.setFeedState (i : FeedId) (st : FeedState) (s : State) : State :=
  s.onFeed i fun f => { f with state := st }

/-- The records on a list of hold lists' feeds, counted. -/
def heldCount (feeds : List Feed) : Nat := (feeds.map fun f => f.hold.length).sum

/-- The pool's free count (R92): 1,024 less the lengths of all sixteen hold lists (log 13). -/
def State.freeCount (s : State) : Nat := Config.poolSize - heldCount s.feeds.toList

def Monitors.get (m : Monitors) : RefId → Monitor
  | .a => m.a
  | .b => m.b

def Monitors.set (m : Monitors) (r : RefId) (x : Monitor) : Monitors :=
  match r with
  | .a => { m with a := x }
  | .b => { m with b := x }

def State.monitor (s : State) (r : RefId) : Monitor := s.monitors.get r

def State.setMonitor (r : RefId) (x : Monitor) (s : State) : State :=
  { s with monitors := s.monitors.set r x }

/-! ## The record queue's taking of an offer (R160 to R164) -/

/-- A new entry at the tail, and the notice it raises when it brings the occupancy to the threshold while the warning is armed (R164). -/
def RecordQueue.append (q : RecordQueue) (e : Entry) : RecordQueue × List NoticeId :=
  if q.armed = true ∧ q.entries.length + 1 = q.threshold then
    ({ q with entries := q.entries ++ [e], armed := false }, [.queueWarning])
  else
    ({ q with entries := q.entries ++ [e] }, [])

/-- The set of record kinds that holds one kind code (R162, R195). -/
def kindSet (kindCode : Nat) : BitVec 8 := BitVec.ofNat 8 (2 ^ (kindCode - 1))

/-- A marker for one lost record (R162). -/
def Marker.fresh (kindCode : Nat) (now : Stamp) : Marker :=
  { lost := 1, first := now, last := now, kinds := kindSet kindCode }

/-- A lost record merged into a marker; the lost count saturates (R162, R5). -/
def Marker.merge (m : Marker) (kindCode : Nat) (now : Stamp) : Marker :=
  { m with
    lost := if m.lost = BitVec.allOnes 32 then m.lost else m.lost + 1
    last := now
    kinds := m.kinds ||| kindSet kindCode }

/-- A lost record: merged into the marker at the tail, or standing behind an ordinary record as a new marker, which raises OVERFLOW (R162). -/
def RecordQueue.lose (q : RecordQueue) (kindCode : Nat) (now : Stamp) : RecordQueue × List NoticeId :=
  match q.entries.getLast? with
  | some (.marker m) => ({ q with entries := q.entries.dropLast ++ [.marker (m.merge kindCode now)] }, [])
  | _ => ((q.append (.marker (.fresh kindCode now))).1, (q.append (.marker (.fresh kindCode now))).2 ++ [.overflow])

/-- The queue takes an ordinary record: it is appended at an occupancy of 4,094 or less, and lost otherwise (R161, R163). -/
def RecordQueue.take (q : RecordQueue) (r : Record) (now : Stamp) : RecordQueue × List NoticeId :=
  if q.entries.length + 2 ≤ Config.queueSlots then
    { q with offered := q.offered + 1 }.append (.record r)
  else
    { q with offered := q.offered + 1, lost := q.lost + 1 }.lose r.body.kindCode now

/-- Raises of sources that carry no summary. -/
def NoticeTable.raiseAll (t : NoticeTable) (ids : List NoticeId) : NoticeTable :=
  ids.foldl (fun t id => t.raise id .empty) t

/-- A block offers a record (R160). -/
def State.offer (r : Record) (s : State) : State :=
  { s with
    queue := (s.queue.take r s.reading).1
    notices := s.notices.raiseAll (s.queue.take r s.reading).2 }

/-- A block offers a record stamped with the reading of the time base at the offer. -/
def State.offerNow (body : RecordBody) (s : State) : State := s.offer { stamp := s.reading, body := body }

/-! ## Replies (R180 to R182) -/

/-- What an owning block answers: a code, and the fields of an OK result after code and kind (R201). -/
structure Reply where
  code : ResultCode
  fields : List Byte
deriving DecidableEq, Repr

/-- An OK reply with fields. -/
def Reply.ok (fields : List Byte) : Reply := { code := .ok, fields := fields }

/-- A reply that carries no field (R201). -/
def Reply.bare (code : ResultCode) : Reply := { code := code, fields := [] }

/-- The occupancy of the result FIFO: results queued and owed (R180). -/
def LinkInterface.occupancy (l : LinkInterface) : Nat := l.queued.length + l.owed

/-- A frame arrives whole: one more result is owed (R180). Nothing is owed while the link is DOWN (R184, R185; log 6). -/
def State.owe (s : State) : State :=
  if s.link.up then { s with link := { s.link with owed := s.link.owed + 1 } } else s

/-- A result is queued: it moves from owed to queued (R180). While the link is DOWN it is discarded instead (R185). -/
def State.queueResult (r : Result) (s : State) : State :=
  if s.link.up then
    { s with link := { s.link with owed := s.link.owed - 1, queued := s.link.queued ++ [r] } }
  else s

/-- The result that answers a request of a kind and tag (R182). -/
def State.answer (kind tag : Byte) (r : Reply) (s : State) : State :=
  s.queueResult { tag := tag, kind := kind, code := r.code, fields := r.fields }

/-! ## The hold in reset (R192) -/

/-- An event of a part that is not held in reset. While the part is held, nothing else happens to it (R192; log 15, DEDUCED). -/
def whenReleased (f : State → State) (s : State) : Host.Outcome State Fault Refusal :=
  .next (if s.resetHold.held then s else f s)

end Sys2Proof.Machine
end

