-- ==== Sys2Proof/Machine/Operands.lean ====
section
/-! DEFINITION. The operand forms: the fields of a request's payload (R198) and the ranges its owning block checks (R199), and the fields of a
header window. -/

namespace Sys2Proof.Machine

/-! ## Payload fields -/

/-- The unsigned field of n bytes at an offset of the payload (R195). -/
def fieldAt (payload : List Byte) (offset n : Nat) : Nat := leNat ((payload.drop offset).take n)

/-- The signed field of n bytes at an offset of the payload (R195). -/
def signedAt (payload : List Byte) (offset n : Nat) : Int := leInt ((payload.drop offset).take n)

/-- The byte at an offset of the payload. -/
def byteAt (payload : List Byte) (offset : Nat) : Nat := fieldAt payload offset 1

/-- A value within a range, bounds included. -/
def within (lo hi v : Nat) : Bool := decide (lo ≤ v ∧ v ≤ hi)

/-- A line number, in range or not. -/
def lineOf (n : Nat) : Option LineId := if h : n < 8 then some ⟨n, h⟩ else none

/-- A feed number, in range or not. -/
def feedOf (n : Nat) : Option FeedId := if h : n < 16 then some ⟨n, h⟩ else none

/-- A selector index, in range or not. -/
def selectorOf (n : Nat) : Option (Fin 32) := if h : n < 32 then some ⟨n, h⟩ else none

/-- A yes-or-no byte (R197, R199). -/
def boolOf : Nat → Option Bool
  | 0 => some false
  | 1 => some true
  | _ => none

/-- The line a request names in its first byte. -/
def lineNamed (payload : List Byte) : Option LineId := lineOf (byteAt payload 0)

/-- The feed a request names in its first byte. -/
def feedNamed (payload : List Byte) : Option FeedId := feedOf (byteAt payload 0)

/-! ## Parameter blocks -/

/-- The largest deskew, 65,535.75 ns in quarter-nanoseconds (R199). -/
def maxDeskew : Nat := 262143

/-- The five parameters of a CONFIGURE LINE, when each is in its range and max length is not below min length (R26, R198). -/
def LineConfig.parse (p : List Byte) : Option LineConfig :=
  let c : LineConfig :=
    { deskew := fieldAt p 1 4, integration := fieldAt p 5 2, minLength := fieldAt p 7 2, maxLength := fieldAt p 9 2,
      badRunLimit := fieldAt p 11 1 }
  if within 0 maxDeskew c.deskew && within 1 10000 c.integration && within 16 1024 c.minLength && within 64 9600 c.maxLength &&
      within 0 255 c.badRunLimit && decide (c.minLength ≤ c.maxLength) then
    some c
  else none

/-- The configuration fields as QUERY LINE reports them, as in CONFIGURE LINE (R201). -/
def LineConfig.bytes (c : LineConfig) : List Byte :=
  leBytes 4 c.deskew ++ leBytes 2 c.integration ++ leBytes 2 c.minLength ++ leBytes 2 c.maxLength ++ leBytes 1 c.badRunLimit

/-- The entry of a WRITE SELECTOR, when none of R35's refusals applies to its fields (R35, R198). -/
def Selector.parse (p : List Byte) : Option Selector :=
  let width := byteAt p 4
  match boolOf (byteAt p 1), feedOf (byteAt p 13), Leg.ofCode (byteAt p 14), boolOf (byteAt p 15) with
  | some valid, some feed, some leg, some mark =>
    if byteAt p 2 != 0 && (width == 1 || width == 2 || width == 4) && decide (byteAt p 3 + width ≤ 256) &&
        decide (fieldAt p 5 4 < 2 ^ (8 * width)) && decide (fieldAt p 9 4 < 2 ^ (8 * width)) then
      some { valid := valid, lineSet := BitVec.ofNat 8 (byteAt p 2), offset := byteAt p 3, width := width,
             mask := BitVec.ofNat 32 (fieldAt p 5 4), value := BitVec.ofNat 32 (fieldAt p 9 4), feed := feed, leg := leg, mark := mark }
    else none
  | _, _, _, _ => none

/-- A selector entry's fields after the index, as WRITE SELECTOR gives them (R201). -/
def Selector.bytes (e : Selector) : List Byte :=
  [boolCode e.valid, e.lineSet, BitVec.ofNat 8 e.offset, BitVec.ofNat 8 e.width] ++ leBytes 4 e.mask.toNat ++ leBytes 4 e.value.toNat ++
    [BitVec.ofNat 8 e.feed.val, legCode e.leg, boolCode e.mark]

/-- The profile of a CONFIGURE FEED, when it passes checks 3 to 5 of R50 (R50, R198). -/
def Profile.parse (p : List Byte) : Option Profile :=
  match ByteOrder.ofCode (byteAt p 3), SendFormat.ofCode (byteAt p 5), ByteOrder.ofCode (byteAt p 6) with
  | some seqOrder, some sendFormat, some sendOrder =>
    let c : Profile :=
      { seqOffset := byteAt p 1, seqWidth := byteAt p 2, seqOrder := seqOrder, sendOffset := byteAt p 4, sendFormat := sendFormat,
        sendOrder := sendOrder, pairing := fieldAt p 7 2, gap := fieldAt p 9 2, silence := fieldAt p 11 2, jumpLimit := fieldAt p 13 4 }
    if (c.seqWidth == 2 || c.seqWidth == 4 || c.seqWidth == 8) && within 1 65535 c.pairing && within 1 65535 c.gap &&
        within 1 65535 c.silence && within 1 1048576 c.jumpLimit && decide (c.seqOffset + c.seqWidth ≤ 256) &&
        (c.sendFormat == .none || decide (c.sendOffset + 8 ≤ 256)) then
      some c
    else none
  | _, _, _ => none

/-- The profile block (R198). -/
def Profile.bytes (c : Profile) : List Byte :=
  [BitVec.ofNat 8 c.seqOffset, BitVec.ofNat 8 c.seqWidth, c.seqOrder.code, BitVec.ofNat 8 c.sendOffset, c.sendFormat.code,
    c.sendOrder.code] ++
  leBytes 2 c.pairing ++ leBytes 2 c.gap ++ leBytes 2 c.silence ++ leBytes 4 c.jumpLimit

/-- The time value of a SET TIME, when its fields are in range (R123, R199). -/
def TimeValue.parse (p : List Byte) : Option TimeValue :=
  if fieldAt p 0 8 < 2 ^ 48 ∧ fieldAt p 8 4 ≤ 999999999 ∧ fieldAt p 12 1 ≤ 3 then
    some { seconds := BitVec.ofNat 48 (fieldAt p 0 8), nanos := Fin.ofNat 1000000000 (fieldAt p 8 4),
           quarters := Fin.ofNat 4 (fieldAt p 12 1) }
  else none

/-- The three values of a CONFIGURE REFERENCE, and the reference it names, when all are in range (R139, R198). -/
structure ReferenceRequest where
  ref : RefId
  enable : Bool
  deskew : Nat
  edge : Edge
deriving DecidableEq, Repr

/-- The payload of a CONFIGURE REFERENCE (R139, R198). -/
def ReferenceRequest.parse (p : List Byte) : Option ReferenceRequest :=
  match RefId.ofCode (byteAt p 0), boolOf (byteAt p 1), Edge.ofCode (byteAt p 6) with
  | some ref, some enable, some edge =>
    if fieldAt p 2 4 ≤ maxDeskew then some { ref := ref, enable := enable, deskew := fieldAt p 2 4, edge := edge } else none
  | _, _, _ => none

/-- The six parameters of a CONFIGURE DISCIPLINE, when each is in its range (R145, R198). -/
def DisciplineParams.parse (p : List Byte) : Option DisciplineParams :=
  match boolOf (byteAt p 8) with
  | some stepPermitted =>
    let c : DisciplineParams :=
      { window := fieldAt p 0 2, count := byteAt p 2, settle := byteAt p 3, threshold := fieldAt p 4 4, stepPermitted := stepPermitted,
        holdoverLimit := fieldAt p 9 2 }
    if within 1 1000 c.window && within 2 15 c.count && within 1 64 c.settle && within 1 500000 c.threshold &&
        within 0 65535 c.holdoverLimit then
      some c
    else none
  | none => none

/-! ## Header window fields -/

/-- The n bytes of a window at an offset; the caller checks that they lie within it (R33, R38, R39). -/
def windowField (window : List Byte) (offset n : Nat) : List Byte := (window.drop offset).take n

/-- A window field read as an unsigned number in a byte order (R38, R40). -/
def orderedNat (order : ByteOrder) (bs : List Byte) : Nat :=
  match order with
  | .big => beNat bs
  | .little => leNat bs

end Sys2Proof.Machine
end

