-- ==== Sys2Proof/Machine/Classifier.lean ====
section
/-! DEFINITION. The ingress arbiter and the classifier (chapter Classification and Field Extraction): INGRESS_GRANT, the selector requests,
and the extraction of sequence number, send time and latency that HAND_OVER uses. -/

namespace Sys2Proof.Machine

/-! ## The grant (R31) -/

/-- The lines in cyclic order, the line after the last-served one first (R31). -/
def cyclicOrder (last : LineId) : List LineId :=
  [last + 1, last + 2, last + 3, last + 4, last + 5, last + 6, last + 7, last]

/-- The lines in the order the arbiter looks at them: the one that ended its wait, when there is one, before the cyclic order (R31, log 26). -/
def Classifier.lookOrder (c : Classifier) : List LineId := c.firstIn.toList ++ cyclicOrder c.lastServed

/-- The line the arbiter grants: the first it looks at whose FIFO is not empty (R31). -/
def State.grantLine (s : State) : Option LineId := s.classifier.lookOrder.find? fun i => !(s.line i).fifo.isEmpty

/-- The arbiter waits: the classifier is free and every FIFO is empty (R31). -/
def State.arbiterWaits (s : State) : Bool := s.classifier.held.isNone && (cyclicOrder 7).all fun i => (s.line i).fifo.isEmpty

/-- A descriptor is about to be appended to a line's FIFO: when the arbiter waits, that line is the one to be granted next (R31, log 26). -/
def State.noteAppend (i : LineId) (s : State) : State :=
  if s.arbiterWaits then { s with classifier := { s.classifier with firstIn := some i } } else s

/-! ## The match (R33, R34) -/

/-- A selector entry matches a descriptor (R33). -/
def Selector.accepts (e : Selector) (d : Descriptor) : Bool :=
  e.valid && e.lineSet.getLsbD d.line.val && decide (e.offset + e.width ≤ d.window.length) &&
    (BitVec.ofNat 32 (beNat (windowField d.window e.offset e.width)) &&& e.mask == e.value &&& e.mask)

/-- The lowest-indexed entry that matches (R33). -/
def Classifier.select (c : Classifier) (d : Descriptor) : Option Selector := c.selectors.toList.find? fun e => e.accepts d

/-- The classifier matches a descriptor: it waits for its hand-over, or is unclaimed on its line and dropped (R30, R33, R34). -/
def Classifier.classify (c : Classifier) (d : Descriptor) : Classifier :=
  match c.select d with
  | some e => { c with held := some { descriptor := d, feed := e.feed, leg := e.leg, mark := e.mark } }
  | none => { c with held := none, unclaimed := c.unclaimed.set d.line.val (c.unclaimed[d.line] + 1) d.line.isLt }

/-- The arbiter grants and the classifier matches; with the classifier busy, or every FIFO empty, there is no grant (R30, R31). -/
def State.grant (s : State) : State :=
  match s.classifier.held, s.grantLine with
  | none, some i =>
    match (s.line i).fifo with
    | d :: rest =>
      let s := s.setLine i { s.line i with fifo := rest }
      { s with classifier := { s.classifier with lastServed := i, firstIn := none }.classify d }
    | [] => s
  | none, none => s
  | some _, _ => s

/-- INGRESS_GRANT. -/
def execIngressGrant (s : State) : Host.Outcome State Fault Refusal := whenReleased State.grant s

/-! ## Selector requests (R35, R36) -/

/-- The selector table with one entry replaced. -/
def State.setSelector (i : Fin 32) (e : Selector) (s : State) : State :=
  { s with classifier := { s.classifier with selectors := s.classifier.selectors.set i.val e i.isLt } }

/-- The classifier carries out WRITE SELECTOR (R35). -/
def ownWriteSelector (payload : List Byte) (s : State) : State × Reply :=
  match selectorOf (byteAt payload 0), Selector.parse payload with
  | some i, some e => (s.setSelector i e, .ok [])
  | _, _ => (s, .bare .range)

/-- The classifier carries out CLEAR SELECTOR (R36). -/
def ownClearSelector (payload : List Byte) (s : State) : State × Reply :=
  match selectorOf (byteAt payload 0) with
  | some i => (s.setSelector i .reset, .ok [])
  | none => (s, .bare .range)

/-- The classifier carries out READ SELECTOR (R36, R201). -/
def ownReadSelector (payload : List Byte) (s : State) : State × Reply :=
  match selectorOf (byteAt payload 0) with
  | some i => (s, .ok (BitVec.ofNat 8 i.val :: s.classifier.selectors[i].bytes))
  | none => (s, .bare .range)

/-! ## Sequence number extraction (R38) -/

/-- The sequence number of a descriptor under a profile, and none when the descriptor is short (R38). -/
def sequenceOf (p : Profile) (window : List Byte) : Option SeqNum :=
  if p.seqOffset + p.seqWidth ≤ window.length then
    some (BitVec.ofNat 32 (orderedNat p.seqOrder (windowField window p.seqOffset p.seqWidth)))
  else none

/-! ## Send-time extraction (R39 to R41) -/

/-- Nanoseconds in a day (R3). -/
def dayNs : Nat := 86400000000000

/-- The sixteen decimal digits of a DAY_DEC field, most significant first (R41). -/
def digitsOf (bs : List Byte) : List Nat := bs.flatMap fun b => [b.toNat / 16, b.toNat % 16]

/-- A number from decimal digits, most significant first. -/
def decimal (ds : List Nat) : Nat := ds.foldl (fun acc d => acc * 10 + d) 0

/-- The digits from position first to last, counted from 1 as R41's table counts them, as a number. -/
def digitField (ds : List Nat) (first last : Nat) : Nat := decimal ((ds.drop (first - 1)).take (last + 1 - first))

/-- The status and the send time of a DAY_DEC field; the digits are checked before the ranges (R41). -/
def decodeDayDec (bs : List Byte) : SendStatus × Option Nat :=
  let ds := digitsOf bs
  if ds.any (fun d => decide (9 < d)) || digitField ds 1 1 != 0 then (.badDigits, none)
  else if 23 < digitField ds 2 3 ∨ 59 < digitField ds 4 5 ∨ 59 < digitField ds 6 7 then (.outOfRange, none)
  else
    (.valid, some ((digitField ds 2 3 * 3600 + digitField ds 4 5 * 60 + digitField ds 6 7) * 1000000000 + digitField ds 8 16))

/-- The send-time status of a descriptor under a profile, and the send time when it is VALID (R39, R40, R41). -/
def sendTimeOf (p : Profile) (window : List Byte) : SendStatus × Option Nat :=
  let bs := windowField window p.sendOffset 8
  let fits := p.sendOffset + 8 ≤ window.length
  match p.sendFormat with
  | .none => (.none, none)
  | .dayNs =>
    if fits then
      if orderedNat p.sendOrder bs < dayNs then (.valid, some (orderedNat p.sendOrder bs)) else (.outOfRange, none)
    else (.outOfWindow, none)
  | .scaleNs => if fits then (.valid, some (orderedNat p.sendOrder bs)) else (.outOfWindow, none)
  | .dayDec => if fits then decodeDayDec bs else (.outOfWindow, none)

/-! ## Latency (R42, R43) -/

/-- A stamp's count of whole nanoseconds since the origin (R42). -/
def Stamp.scaleNs (s : Stamp) : Int := s.value.seconds.toNat * 1000000000 + s.value.nanos.val

/-- A stamp's time of day in whole nanoseconds (R43). -/
def Stamp.dayNs (s : Stamp) : Int := (s.value.seconds.toNat % 86400 : Nat) * 1000000000 + s.value.nanos.val

/-- A difference of times of day folded above −43,200 s and up to +43,200 s (R43). -/
def foldDay (d : Int) : Int :=
  if 43200000000000 < d then d - 86400000000000
  else if d ≤ -43200000000000 then d + 86400000000000
  else d

/-- The latency of a copy whose send time is VALID (R42, R43). -/
def latencyOf (format : SendFormat) (stamp : Stamp) (sent : Nat) : Option Int :=
  match format with
  | .none => none
  | .scaleNs => if -(2 ^ 47) ≤ stamp.scaleNs - sent ∧ stamp.scaleNs - sent ≤ 2 ^ 47 then some (stamp.scaleNs - sent) else none
  | .dayNs => some (foldDay (stamp.dayNs - sent))
  | .dayDec => some (foldDay (stamp.dayNs - sent))

/-! ## The arrival (R44) -/

/-- The arrival that a matched descriptor becomes under its feed's profile, with its number (R44). -/
def arrivalOf (p : Profile) (m : Matched) (number : SeqNum) : Arrival :=
  let d := m.descriptor
  let send := sendTimeOf p d.window
  { number := number
    copy :=
      { leg := m.leg, line := d.line, stamp := d.stamp, frameLength := d.frameLength, mark := m.mark, sendStatus := send.1,
        sendTime := send.2.map (BitVec.ofNat 64), latency := send.2.bind (latencyOf p.sendFormat d.stamp) } }

/-- The classifier free again (R30, R37). -/
def State.freeClassifier (s : State) : State := { s with classifier := { s.classifier with held := none } }

/-- A descriptor counted as short on its line (R38). -/
def State.countShort (i : LineId) (s : State) : State :=
  { s with classifier := { s.classifier with short := s.classifier.short.set i.val (s.classifier.short[i] + 1) i.isLt } }

end Sys2Proof.Machine
end

