-- ==== Sys2Proof/Machine/FeedLists.lean ====
section
/-! DEFINITION. Hold lists and gap lists (chapter Hold Lists and Gap Lists): release, chain release, bypass of the pool, declaration and
removal of gap ranges, the pairing and gap timers, and the leg watch of R55 to R57. -/

namespace Sys2Proof.Machine

/-! ## Release (R72, R89, R90, R102) -/

/-- The skew of a record with a twin: in one epoch, the twin's time value less the first copy's, when it fits four bytes (R72). -/
def skewOf (first twin : Stamp) : Option (BitVec 32) :=
  let d := ((twin.value.toQuarters : Int) - first.value.toQuarters) % timeModulus
  if first.epoch = twin.epoch ∧ d ≤ 4294967295 then some (BitVec.ofNat 32 d.toNat) else none

/-- The ARRIVAL record of a release, stamped with the first copy's stamp (R90, R204). -/
def arrivalRecord (i : FeedId) (format : SendFormat) (status : TwinStatus) (h : HeldRecord) : Record :=
  { stamp := h.first.stamp
    body := .arrival
      { feed := i, number := h.number, status := status, flags := h.flags, first := h.first, format := format, twin := h.twin,
        skew := h.twin.bind fun t => skewOf h.first.stamp t.stamp } }

/-- Won by A or won by B, by the leg of the first copy (R89, R102). -/
def countWon (leg : Leg) (c : FeedCounters) : FeedCounters :=
  match leg with
  | .a => { c with wonA := c.wonA + 1 }
  | .b => { c with wonB := c.wonB + 1 }

/-- One release: the ARRIVAL record is offered and a won counter moves (R102). The record's pool entry is returned by its leaving the list
(R92, log 13). -/
def State.release (i : FeedId) (status : TwinStatus) (h : HeldRecord) (s : State) : State :=
  (s.offer (arrivalRecord i (s.feed i).profile.sendFormat status h)).count i (countWon h.first.leg)

/-- Releases in order (R100, R102). -/
def State.releaseAll (i : FeedId) (rs : List (TwinStatus × HeldRecord)) (s : State) : State :=
  rs.foldl (fun s r => s.release i r.1 r.2) s

/-- The status of a release that empties a list or ages its head: PAIRED with a twin, the cause's own without (R52, R82, R87). -/
def statusOr (status : TwinStatus) (h : HeldRecord) : TwinStatus := if h.twin.isSome then .paired else status

/-! ## Chain release (R100) -/

/-- The records that a chain releases from the head, with their statuses: heads with a twin PAIRED, due heads without one TIMEOUT, up to the
first head that is neither (R100). -/
def chainReleased (now : LocalCount) : List HeldRecord → List (TwinStatus × HeldRecord)
  | [] => []
  | h :: t =>
    if h.twin.isSome then (.paired, h) :: chainReleased now t
    else if reached h.deadline now then (.timeout, h) :: chainReleased now t
    else []

/-- The hold list that a chain leaves (R100). -/
def chainLeft (now : LocalCount) : List HeldRecord → List HeldRecord
  | [] => []
  | h :: t =>
    if h.twin.isSome then chainLeft now t
    else if reached h.deadline now then chainLeft now t
    else h :: t

/-- The chain release: the head is examined, and the next after each release (R100). -/
def State.chain (i : FeedId) (s : State) : State :=
  (s.setHold i (chainLeft s.now (s.feed i).hold)).releaseAll i (chainReleased s.now (s.feed i).hold)

/-- The whole hold list released in list order (R52, R82). -/
def State.flushHold (i : FeedId) (status : TwinStatus) (s : State) : State :=
  (s.setHold i []).releaseAll i ((s.feed i).hold.map fun h => (statusOr status h, h))

/-! ## PAIRING_TIMER_EXPIRY (R97, R99) -/

/-- The pairing timer's deadline: that of the head (R97, log 13). -/
def Feed.pairingTimer (f : Feed) : Option LocalCount := f.hold.head?.map HeldRecord.deadline

/-- The pairing timer expires when the head is on the list, without a twin, and its deadline is reached (R97); the head goes with TIMEOUT
and the chain follows (R99, R100). Otherwise there is no expiry (log 4). -/
def State.expirePairing (i : FeedId) (s : State) : State :=
  match (s.feed i).hold with
  | h :: _ => if h.twin.isNone = true ∧ reached h.deadline s.now = true then s.chain i else s
  | [] => s

/-- PAIRING_TIMER_EXPIRY. -/
def execPairingTimerExpiry (i : FeedId) (s : State) : Host.Outcome State Fault Refusal := whenReleased (State.expirePairing i) s

/-! ## Declaration of gaps (R103, R111) -/

/-- One declaration: a GAP record stamped now, and its count added to the numbers declared lost (R111). -/
def State.declare (i : FeedId) (cause : GapCause) (g : GapRange) (s : State) : State :=
  (s.offerNow (.gap i cause g.first g.last g.opened)).count i fun c =>
    { c with numbersLost := c.numbersLost + rangeCount g.first g.last }

/-- Declarations in order. -/
def State.declareAll (i : FeedId) (cause : GapCause) (gs : List GapRange) (s : State) : State :=
  gs.foldl (fun s g => s.declare i cause g) s

/-- The whole gap list declared in list order (R52, R82). -/
def State.flushGaps (i : FeedId) (cause : GapCause) (s : State) : State :=
  (s.setGaps i []).declareAll i cause (s.feed i).gaps

/-! ## GAP_TIMER_EXPIRY (R104, R109) -/

/-- The gap timer's deadline: that of the oldest range (R104, log 13). -/
def Feed.gapTimer (f : Feed) : Option LocalCount := f.gaps.head?.map GapRange.deadline

/-- A range whose deadline is at or before now (R109). -/
def GapRange.isDue (now : LocalCount) (g : GapRange) : Bool := reached g.deadline now

/-- The gap timer's expiry: the oldest range, if due, and every following range up to the first whose deadline is still ahead (R109). -/
def State.expireGaps (i : FeedId) (s : State) : State :=
  (s.setGaps i ((s.feed i).gaps.dropWhile (GapRange.isDue s.now))).declareAll i .timeout
    ((s.feed i).gaps.takeWhile (GapRange.isDue s.now))

/-- GAP_TIMER_EXPIRY; with no range due there is no expiry (log 4). -/
def execGapTimerExpiry (i : FeedId) (s : State) : Host.Outcome State Fault Refusal := whenReleased (State.expireGaps i) s

/-! ## Late fills (R74, R106 to R108) -/

/-- A number lies within a range (R74). -/
def GapRange.holds (n : SeqNum) (g : GapRange) : Bool := decide ((n - g.first).toNat ≤ (g.last - g.first).toNat)

/-- The lower piece of a range split at n (R107). -/
def GapRange.lower (n : SeqNum) (g : GapRange) : GapRange := { g with last := n - 1 }

/-- The upper piece of a range split at n (R107). -/
def GapRange.upper (n : SeqNum) (g : GapRange) : GapRange := { g with first := n + 1 }

/-- A number strictly inside a range, with the ranges before and after it in the list (R107, R108). -/
def State.splitGap (i : FeedId) (n : SeqNum) (before : List GapRange) (g : GapRange) (behindIt : List GapRange) (s : State) : State :=
  if before.length + 1 + behindIt.length < Config.gapPlaces then
    s.setGaps i (before ++ g.lower n :: g.upper n :: behindIt)
  else
    match before with
    | [] => (s.setGaps i (g.upper n :: behindIt)).declare i .listFull (g.lower n)
    | oldest :: rest => (s.setGaps i (rest ++ g.lower n :: g.upper n :: behindIt)).declare i .listFull oldest

/-- A number taken out of the range that holds it: the range closes, shrinks or splits (R106). -/
def State.takeFromGap (i : FeedId) (n : SeqNum) (before : List GapRange) (g : GapRange) (behindIt : List GapRange) (s : State) : State :=
  if n = g.first ∧ n = g.last then
    (s.setGaps i (before ++ behindIt)).count i fun c => { c with gapsFilled := c.gapsFilled + 1 }
  else if n = g.first then s.setGaps i (before ++ g.upper n :: behindIt)
  else if n = g.last then s.setGaps i (before ++ g.lower n :: behindIt)
  else s.splitGap i n before g behindIt

/-- A late fill's number removed from the gap list (R74 step 1). -/
def State.removeFromGaps (i : FeedId) (n : SeqNum) (s : State) : State :=
  let outside := fun g : GapRange => !g.holds n
  match (s.feed i).gaps.dropWhile outside with
  | g :: behindIt => s.takeFromGap i n ((s.feed i).gaps.takeWhile outside) g behindIt
  | [] => s

/-! ## Opening a gap (R77, R105) -/

/-- A range opened at the end of the list, the oldest declared LIST_FULL first when four are held (R105). -/
def State.openGap (i : FeedId) (first last : SeqNum) (opened : Stamp) (s : State) : State :=
  let f := s.feed i
  let g : GapRange := { first := first, last := last, opened := opened, deadline := after s.now (f.profile.gap * 1000) }
  let opensOne := fun c : FeedCounters => { c with gapsOpened := c.gapsOpened + 1 }
  match f.gaps with
  | oldest :: rest =>
    if f.gaps.length < Config.gapPlaces then (s.setGaps i (f.gaps ++ [g])).count i opensOne
    else ((s.setGaps i (rest ++ [g])).declare i .listFull oldest).count i opensOne
  | [] => (s.setGaps i [g]).count i opensOne

/-! ## Legs (R55 to R57) -/

def Feed.leg (f : Feed) : Leg → LegWatch
  | .a => f.legA
  | .b => f.legB

def Feed.setLeg (f : Feed) (leg : Leg) (w : LegWatch) : Feed :=
  match leg with
  | .a => { f with legA := w }
  | .b => { f with legB := w }

/-- The set that holds one feed (R195). -/
def feedBit (i : FeedId) : BitVec 16 := BitVec.ofNat 16 (2 ^ i.val)

/-- A change of a leg's state: one LEG record and a raise of the LEG source (R57). -/
def State.reportLeg (i : FeedId) (leg : Leg) (old new : LegState) (stamp : Stamp) (s : State) : State :=
  (s.offer { stamp := stamp, body := .leg i leg old new }).raise .leg (.feeds (feedBit i))

/-- The leg update of an arrival: the silence deadline restarts, and a WAITING or SILENT leg enters ACTIVE (R55). -/
def State.updateLeg (i : FeedId) (leg : Leg) (stamp : Stamp) (s : State) : State :=
  let f := s.feed i
  let s := s.setFeed i (f.setLeg leg { state := .active, deadline := some (after s.now (f.profile.silence * 1000000)) })
  if (f.leg leg).state = .active then s else s.reportLeg i leg (f.leg leg).state .active stamp

/-- A silence deadline passes while the leg is WAITING or ACTIVE: the leg enters SILENT (R56). Otherwise there is no expiry (log 4). -/
def State.expireSilence (i : FeedId) (leg : Leg) (s : State) : State :=
  let w := (s.feed i).leg leg
  if (w.state = .waiting ∨ w.state = .active) ∧ due w.deadline s.now = true then
    (s.setFeed i ((s.feed i).setLeg leg { state := .silent, deadline := none })).reportLeg i leg w.state .silent s.reading
  else s

/-- SILENCE_DEADLINE_EXPIRY. -/
def execSilenceDeadlineExpiry (i : FeedId) (leg : Leg) (s : State) : Host.Outcome State Fault Refusal :=
  whenReleased (State.expireSilence i leg) s

end Sys2Proof.Machine
end

