-- ==== Sys2Proof/Machine/Arbitration.lean ====
section
/-! DEFINITION. What the feed engine does with each arrival (chapter Sequence Arbitration): HAND_OVER and CANDIDATE_EXPIRY. -/

namespace Sys2Proof.Machine

/-! ## Creating a record (R67, R94) -/

/-- The deadline of a record created, or of a candidate, now (R67, R79). -/
def State.pairingDeadline (i : FeedId) (s : State) : LocalCount := after s.now ((s.feed i).profile.pairing * 1000)

/-- The record that an arrival creates (R67). -/
def recordOf (a : Arrival) (lateFill : Bool) (deadline : LocalCount) : HeldRecord :=
  { number := a.number, first := a.copy, twin := none,
    flags := { lateFill := lateFill, repeatSeen := false, mark := a.copy.mark, restartBase := false }, deadline := deadline }

/-- A record released at once because the pool has no free entry (R94). -/
def State.bypass (i : FeedId) (h : HeldRecord) (s : State) : State :=
  (s.count i fun c => { c with notHeld := c.notHeld + 1 }).release i .notHeld h

/-- A record is created: first copies increments, and it joins the tail of the hold list, or bypasses the pool (R67, R94). -/
def State.create (i : FeedId) (a : Arrival) (lateFill : Bool) (s : State) : State :=
  let h := recordOf a lateFill (s.pairingDeadline i)
  let s := s.count i fun c => { c with firstCopies := c.firstCopies + 1 }
  if s.freeCount = 0 then s.bypass i h else s.setHold i ((s.feed i).hold ++ [h])

/-! ## Twins and repeats (R68 to R71, R73) -/

/-- The arriving copy is first, against the record's present first copy (R70). DEDUCED (log 10): within one epoch, earlier is less as a
number. -/
def arrivesFirst (held arriving : FrameCopy) : Bool :=
  if held.stamp.epoch = arriving.stamp.epoch then
    if held.stamp.value.toQuarters = arriving.stamp.value.toQuarters then arriving.leg == .a
    else decide (arriving.stamp.value.toQuarters < held.stamp.value.toQuarters)
  else if laterEpoch held.stamp.epoch arriving.stamp.epoch then false
  else if laterEpoch arriving.stamp.epoch held.stamp.epoch then true
  else arriving.leg == .a

/-- A copy is the record's twin: it is on the other leg and the record has none (R68). -/
def HeldRecord.wantsTwin (h : HeldRecord) (c : FrameCopy) : Bool := h.twin.isNone && h.first.leg != c.leg

/-- A twin attached, the copies exchanging places when the twin is first (R70, R71, R73). -/
def HeldRecord.attach (h : HeldRecord) (c : FrameCopy) : HeldRecord :=
  let flags := { h.flags with mark := h.flags.mark || c.mark }
  if arrivesFirst h.first c then
    { h with first := c, twin := some { line := h.first.line, stamp := h.first.stamp }, flags := flags }
  else { h with twin := some { line := c.line, stamp := c.stamp }, flags := flags }

/-- A repeat noted on a record (R69, R73). -/
def HeldRecord.noteRepeat (h : HeldRecord) (c : FrameCopy) : HeldRecord :=
  { h with flags := { h.flags with repeatSeen := true, mark := h.flags.mark || c.mark } }

/-- A record acted on by a copy of its own number (R68). -/
def HeldRecord.meet (h : HeldRecord) (c : FrameCopy) : HeldRecord := if h.wantsTwin c then h.attach c else h.noteRepeat c

/-- The counter that a copy of a held number moves (R68, R69). -/
def countMeet (h : HeldRecord) (c : FrameCopy) (k : FeedCounters) : FeedCounters :=
  if h.wantsTwin c then { k with twins := k.twins + 1 } else { k with repeats := k.repeats + 1 }

/-- Check 1: a copy of the candidate's number (R68). -/
def State.meetCandidate (i : FeedId) (h : HeldRecord) (a : Arrival) (s : State) : State :=
  (s.setCandidate i (some (h.meet a.copy))).count i (countMeet h a.copy)

/-- A record of the hold list replaced in its place. -/
def replaceHeld (n : SeqNum) (h : HeldRecord) : List HeldRecord → List HeldRecord
  | [] => []
  | x :: xs => if x.number = n then h :: xs else x :: replaceHeld n h xs

/-- The head of the feed's hold list has this number. -/
def Feed.headIs (f : Feed) (n : SeqNum) : Bool := f.hold.head?.map HeldRecord.number == some n

/-- Check 2: a copy of a held record's number; a twin attached to the head releases it, and the chain follows (R68, R98). -/
def State.meetHeld (i : FeedId) (h : HeldRecord) (a : Arrival) (s : State) : State :=
  let t := (s.setHold i (replaceHeld a.number (h.meet a.copy) (s.feed i).hold)).count i (countMeet h a.copy)
  if h.wantsTwin a.copy = true ∧ (s.feed i).headIs a.number = true then t.chain i else t

/-! ## Late fills (R74) -/

/-- Check 3: the number leaves its range, and a LATE_FILL record is created (R74). -/
def State.lateFill (i : FeedId) (a : Arrival) (s : State) : State :=
  ((s.removeFromGaps i a.number).create i a true).count i fun c => { c with lateFills := c.lateFills + 1 }

/-! ## Distance aging (R86 to R88) -/

/-- A number lies behind E by a quarter of the number space or more (R86, R87). -/
def isAged (e n : SeqNum) : Bool :=
  match behind e n with
  | some b => decide (Config.agingDistance ≤ b)
  | none => false

/-- Gaps whose first number is aged are declared, in list order (R86). -/
def State.ageGaps (i : FeedId) (e : SeqNum) (s : State) : State :=
  (s.setGaps i ((s.feed i).gaps.filter fun g => !isAged e g.first)).declareAll i .aged
    ((s.feed i).gaps.filter fun g => isAged e g.first)

/-- The part of a hold list from its head to its last aged record, that one included (R87). -/
def agedPart (e : SeqNum) : List HeldRecord → List HeldRecord
  | [] => []
  | h :: t => if isAged e h.number || t.any (fun x => isAged e x.number) then h :: agedPart e t else []

/-- Held records are released from the head up to the last aged one; the chain examines the new head (R87, R100). -/
def State.ageHeld (i : FeedId) (e : SeqNum) (s : State) : State :=
  let aged := agedPart e (s.feed i).hold
  if aged.isEmpty then s
  else
    ((s.setHold i ((s.feed i).hold.drop aged.length)).releaseAll i (aged.map fun h => (statusOr .aged h, h))).chain i

/-- A number lies beyond the jump limit L from E, ahead or behind (R75, R88). -/
def beyond (limit : Nat) (e n : SeqNum) : Bool :=
  match behind e n with
  | some b => decide (limit < b)
  | none => decide (limit < distance e n)

/-- A stray counted and the candidate slot emptied (R80). -/
def State.dropCandidate (i : FeedId) (s : State) : State :=
  (s.setCandidate i none).count i fun c => { c with strays := c.strays + 1 }

/-- A candidate that E has come within reach of expires at once (R88). -/
def State.ageCandidate (i : FeedId) (e : SeqNum) (s : State) : State :=
  match (s.feed i).candidate with
  | some c => if beyond (s.feed i).profile.jumpLimit e c.number then s else s.dropCandidate i
  | none => s

/-- The aging after a change of E by R76 or R77: gaps, then held records, then the candidate. -/
def State.age (i : FeedId) (e : SeqNum) (s : State) : State := ((s.ageGaps i e).ageHeld i e).ageCandidate i e

/-! ## The distance from E (R75 to R79) -/

/-- In order: a record is created, E advances, aging follows (R76). -/
def State.inOrder (i : FeedId) (a : Arrival) (s : State) : State :=
  ((s.create i a false).setFeedState i (.running (a.number + 1))).age i (a.number + 1)

/-- Ahead of E: a gap is opened, a record is created, E moves past it, aging follows (R77). -/
def State.ahead (i : FeedId) (e : SeqNum) (a : Arrival) (s : State) : State :=
  (((s.openGap i e (a.number - 1) a.copy.stamp).create i a false).setFeedState i (.running (a.number + 1))).age i (a.number + 1)

/-- A late copy (R78). -/
def State.lateCopy (i : FeedId) (s : State) : State := s.count i fun c => { c with lateCopies := c.lateCopies + 1 }

/-- The arrival fills the candidate slot, an earlier candidate being discarded as a stray (R79). -/
def State.becomeCandidate (i : FeedId) (a : Arrival) (s : State) : State :=
  let t := match (s.feed i).candidate with
    | some _ => s.dropCandidate i
    | none => s
  t.setCandidate i (some (recordOf a false (s.pairingDeadline i)))

/-- Check 5: the five cases of the distance from E (R75). -/
def State.place (i : FeedId) (e : SeqNum) (a : Arrival) (s : State) : State :=
  if a.number = e then s.inOrder i a
  else if beyond (s.feed i).profile.jumpLimit e a.number then s.becomeCandidate i a
  else
    match behind e a.number with
    | some _ => s.lateCopy i
    | none => s.ahead i e a

/-! ## Restart confirmation (R81 to R85) -/

/-- A number is ahead of the candidate's by 1 to 16 (R81). -/
def confirms (c n : SeqNum) : Bool := decide (1 ≤ distance c n ∧ distance c n ≤ Config.confirmWindow)

/-- The candidate leaves its slot and becomes a record of the feed: held, and examined as the head, or released at once when the pool has no
free entry (R83). -/
def State.promote (i : FeedId) (c : HeldRecord) (s : State) : State :=
  let h := { c with flags := { c.flags with restartBase := true } }
  let s := (s.setCandidate i none).count i fun k => { k with firstCopies := k.firstCopies + 1 }
  if s.freeCount = 0 then
    if h.twin.isSome then s.release i .paired h else s.bypass i h
  else (s.setHold i ((s.feed i).hold ++ [h])).chain i

/-- The six steps of a confirmed restart (R82, R85). -/
def State.confirmRestart (i : FeedId) (e : SeqNum) (c : HeldRecord) (a : Arrival) (s : State) : State :=
  let s := (s.flushHold i .restart).flushGaps i .restart
  let s := s.offer { stamp := a.copy.stamp, body := .restart i e c.number c.first.stamp }
  let s := (s.setFeedState i (.running (c.number + 1))).promote i c
  s.count i fun k => { k with restarts := k.restarts + 1 }

/-! ## The arrival event (R63 to R65) -/

/-- The first arrival of an ARMED feed (R64); the aging of R86 and R87 follows this change of E too. -/
def State.firstArrival (i : FeedId) (a : Arrival) (s : State) : State :=
  (((s.create i a false).setFeedState i (.running (a.number + 1))).ageGaps i (a.number + 1)).ageHeld i (a.number + 1)

/-- Checks 4 and 5 (R65, R81, R84). -/
def State.confirmOrPlace (i : FeedId) (e : SeqNum) (a : Arrival) (s : State) : State :=
  match (s.feed i).candidate with
  | some c =>
    if confirms c.number a.number then (s.confirmRestart i e c a).place i (c.number + 1) a else s.place i e a
  | none => s.place i e a

/-- Checks 2 to 5 (R65). -/
def State.checkLists (i : FeedId) (e : SeqNum) (a : Arrival) (s : State) : State :=
  match (s.feed i).hold.find? fun h => h.number == a.number with
  | some h => s.meetHeld i h a
  | none => if (s.feed i).gaps.any (GapRange.holds a.number) then s.lateFill i a else s.confirmOrPlace i e a

/-- The five ordered checks of a RUNNING feed (R65). -/
def State.arbitrate (i : FeedId) (e : SeqNum) (a : Arrival) (s : State) : State :=
  match (s.feed i).candidate with
  | some c => if c.number = a.number then s.meetCandidate i c a else s.checkLists i e a
  | none => s.checkLists i e a

/-- The arrival counted as a copy taken on its leg (R58, R63). -/
def countCopy (leg : Leg) (c : FeedCounters) : FeedCounters :=
  match leg with
  | .a => { c with copiesA := c.copiesA + 1 }
  | .b => { c with copiesB := c.copiesB + 1 }

/-- An arrival taken: the leg update, the count, the arbitration (R55, R63). -/
def State.takeArrival (i : FeedId) (a : Arrival) (s : State) : State :=
  let s := (s.updateLeg i a.copy.leg a.copy.stamp).count i (countCopy a.copy.leg)
  match (s.feed i).state with
  | .closed => s
  | .armed => s.firstArrival i a
  | .running e => s.arbitrate i e a

/-! ## HAND_OVER (R37, R38, R44) -/

/-- The feed engine takes a matched descriptor of an open feed: extraction, then the arrival (R37, R38, R44). -/
def State.extractAndTake (m : Matched) (s : State) : State :=
  match sequenceOf (s.feed m.feed).profile m.descriptor.window with
  | none => s.countShort m.descriptor.line
  | some n => s.takeArrival m.feed (arrivalOf (s.feed m.feed).profile m n)

/-- The feed engine takes the matched descriptor; the classifier is then free (R30, R37). -/
def State.handOver (s : State) : State :=
  match s.classifier.held with
  | none => s
  | some m =>
    match (s.feed m.feed).state with
    | .closed => s.freeClassifier.count m.feed fun c => { c with whileClosed := c.whileClosed + 1 }
    | .armed => s.freeClassifier.extractAndTake m
    | .running _ => s.freeClassifier.extractAndTake m

/-- HAND_OVER; with no matched descriptor waiting there is nothing to take. -/
def execHandOver (s : State) : Host.Outcome State Fault Refusal := whenReleased State.handOver s

/-! ## CANDIDATE_EXPIRY (R80) -/

/-- The candidate's deadline passes and the slot still holds it (R80). Otherwise there is no expiry (log 4). -/
def State.expireCandidate (i : FeedId) (s : State) : State :=
  match (s.feed i).candidate with
  | some c => if reached c.deadline s.now then s.dropCandidate i else s
  | none => s

/-- CANDIDATE_EXPIRY. -/
def execCandidateExpiry (i : FeedId) (s : State) : Host.Outcome State Fault Refusal := whenReleased (State.expireCandidate i) s

end Sys2Proof.Machine
end

