-- ==== Sys2Proof/Machine/Feeds.lean ====
section
/-! DEFINITION. The requests that address a feed (chapter Feeds and Legs): what the feed engine does with CONFIGURE FEED, OPEN FEED, CLOSE FEED
and QUERY FEED. -/

namespace Sys2Proof.Machine

/-! ## CONFIGURE FEED (R50) -/

/-- The feed engine carries out CONFIGURE FEED: feed, then state, then parameters (R50). -/
def ownConfigureFeed (payload : List Byte) (s : State) : State × Reply :=
  match feedNamed payload with
  | none => (s, .bare .range)
  | some i =>
    match (s.feed i).state with
    | .closed =>
      match Profile.parse payload with
      | some p => (s.onFeed i fun f => { f with profile := p }, .ok [])
      | none => (s, .bare .range)
    | .armed => (s, .bare .state)
    | .running _ => (s, .bare .state)

/-! ## OPEN FEED (R51) -/

/-- The silence interval of a feed in nanoseconds (R48). -/
def Profile.silenceNs (p : Profile) : Nat := p.silence * 1000000

/-- A leg in WAITING from now (R51). -/
def waitingLeg (p : Profile) (now : LocalCount) : LegWatch := { state := .waiting, deadline := some (after now p.silenceNs) }

/-- A feed armed: both legs WAITING, nothing else changed (R51). -/
def Feed.arm (now : LocalCount) (f : Feed) : Feed :=
  { f with state := .armed, legA := waitingLeg f.profile now, legB := waitingLeg f.profile now }

/-- The feed engine carries out OPEN FEED (R51). -/
def ownOpenFeed (payload : List Byte) (s : State) : State × Reply :=
  match feedNamed payload with
  | none => (s, .bare .range)
  | some i =>
    match (s.feed i).state with
    | .closed => (s.onFeed i (Feed.arm s.now), .ok [])
    | .armed => (s, .bare .state)
    | .running _ => (s, .bare .state)

/-! ## CLOSE FEED (R52) -/

/-- The candidate, if any, discarded as a stray (R52 step 3). -/
def State.discardCandidate (i : FeedId) (s : State) : State :=
  match (s.feed i).candidate with
  | some _ => s.dropCandidate i
  | none => s

/-- The legs cleared and the feed CLOSED (R52 step 4). -/
def Feed.shut (f : Feed) : Feed := { f with state := .closed, legA := .none, legB := .none }

/-- The four steps of a close (R52). -/
def State.closeFeed (i : FeedId) (s : State) : State :=
  (((s.flushHold i .closed).flushGaps i .closed).discardCandidate i).onFeed i Feed.shut

/-- The feed engine carries out CLOSE FEED (R52). -/
def ownCloseFeed (payload : List Byte) (s : State) : State × Reply :=
  match feedNamed payload with
  | none => (s, .bare .range)
  | some i =>
    match (s.feed i).state with
    | .closed => (s, .bare .state)
    | .armed => (s.closeFeed i, .ok [])
    | .running _ => (s.closeFeed i, .ok [])

/-! ## QUERY FEED (R54, R201) -/

/-- The expected number E, present in RUNNING only (R47). -/
def FeedState.expected : FeedState → Option SeqNum
  | .closed => none
  | .armed => none
  | .running e => some e

/-- The fields of a leg in a QUERY FEED result (R201). -/
def LegWatch.bytes (w : LegWatch) : List Byte := w.state.code :: optField 8 (w.deadline.map BitVec.toNat)

/-- The head and tail fields of a hold list in a QUERY FEED result: all absent when it is empty (R201). -/
def holdFields (hold : List HeldRecord) : List Byte :=
  match hold.head?, hold.getLast? with
  | some h, some t =>
    [1] ++ leBytes 4 h.number.toNat ++ [legCode h.first.leg, boolCode h.twin.isSome] ++ leBytes 8 h.deadline.toNat ++
      leBytes 4 t.number.toNat
  | _, _ => zeros 19

/-- The candidate's fields in a QUERY FEED result (R201). -/
def candidateFields (candidate : Option HeldRecord) : List Byte :=
  match candidate with
  | some c =>
    [1] ++ leBytes 4 c.number.toNat ++ [legCode c.first.leg, boolCode c.twin.isSome] ++ leBytes 8 c.deadline.toNat
  | none => zeros 15

/-- A range in a QUERY FEED result (R201). -/
def GapRange.bytes (g : GapRange) : List Byte :=
  leBytes 4 g.first.toNat ++ leBytes 4 g.last.toNat ++ g.opened.block ++ leBytes 8 g.deadline.toNat

/-- The fields of a QUERY FEED result (R54, R201). -/
def State.feedFields (i : FeedId) (s : State) : List Byte :=
  let f := s.feed i
  leBytes 8 s.now.toNat ++ leBytes 2 s.freeCount ++ [BitVec.ofNat 8 i.val, f.state.code] ++ f.profile.bytes ++
    optField 4 (f.state.expected.map BitVec.toNat) ++ f.legA.bytes ++ f.legB.bytes ++ leBytes 2 f.hold.length ++ holdFields f.hold ++
    candidateFields f.candidate ++ counterBytes f.counters.toList ++ leBytes 1 f.gaps.length ++ f.gaps.flatMap GapRange.bytes

/-- The feed engine carries out QUERY FEED (R54). -/
def ownQueryFeed (payload : List Byte) (s : State) : State × Reply :=
  match feedNamed payload with
  | none => (s, .bare .range)
  | some i => (s, .ok (s.feedFields i))

end Sys2Proof.Machine
end

