-- ==== Sys2Proof/Machine/LinePorts.lean ====
section
/-! DEFINITION. The line ports (chapter Line Ports and Arrival Stamping): LINE_SIGNAL_CHANGE, START_OF_FRAME, END_OF_FRAME,
QUIET_TIMER_EXPIRY, and what the port does with ENABLE LINE, DISABLE LINE, CONFIGURE LINE and its part of QUERY LINE. -/

namespace Sys2Proof.Machine

/-! ## The port -/

/-- The quiet timer's interval in nanoseconds: the integration interval is in units of 0.1 µs (R15, R26). -/
def LineConfig.quietNs (c : LineConfig) : Nat := c.integration * 100

/-- The quiet timer started, or restarted, from now (R15). -/
def LinePort.restartQuiet (now : LocalCount) (p : LinePort) : LinePort := { p with quiet := some (after now p.config.quietNs) }

/-- The port in INTEGRATING, as on every entry: bad-run count 0, quiet timer started (R15, R20). -/
def LinePort.integrate (now : LocalCount) (p : LinePort) : LinePort :=
  { p with state := .integrating, badRun := 0, quiet := some (after now p.config.quietNs) }

/-- A frame in progress is abandoned and counted as aborted (R24). -/
def LinePort.abandon (p : LinePort) : LinePort :=
  match p.frame with
  | some _ => { p with frame := none, counters := { p.counters with aborted := p.counters.aborted + 1 } }
  | none => p

/-- The port in DOWN or DISABLED: timer stopped, bad-run count 0, frame in progress abandoned (R12, R13). -/
def LinePort.stopIn (state : LineState) (p : LinePort) : LinePort :=
  { p.abandon with state := state, quiet := none, badRun := 0 }

/-- The set that holds one line (R195). -/
def lineBit (i : LineId) : BitVec 8 := BitVec.ofNat 8 (2 ^ i.val)

/-- A change of line state: one LINE record, stamped with the reading of the time base, and a raise of the LINE source (R25). -/
def State.changeLine (i : LineId) (cause : LineCause) (p : LinePort) (s : State) : State :=
  ((s.setLine i p).offerNow (.line i (s.line i).state p.state cause)).raise .line (.lines (lineBit i))

/-! ## LINE_SIGNAL_CHANGE (R10, R13, R14) -/

/-- The port takes a change of its signal-detect input: the remembered level follows it in every state. -/
def State.portSignal (i : LineId) (present : Bool) (s : State) : State :=
  let p := { s.line i with signal := present }
  match p.state, present with
  | .down, true => s.changeLine i .signalBack (p.integrate s.now)
  | .integrating, false => s.changeLine i .signalLost (p.stopIn .down)
  | .active, false => s.changeLine i .signalLost (p.stopIn .down)
  | .disabled, _ => s.setLine i p
  | .down, false => s.setLine i p
  | .integrating, true => s.setLine i p
  | .active, true => s.setLine i p

/-- The input takes a level. -/
def State.setSd (i : LineId) (present : Bool) (s : State) : State :=
  { s with pins := { s.pins with sd := s.pins.sd.set i.val present i.isLt } }

/-- LINE_SIGNAL_CHANGE. While the part is held in reset the input changes and no event is taken (R192); the level is read at the release (R10). -/
def execLineSignalChange (i : LineId) (present : Bool) (s : State) : Host.Outcome State Fault Refusal :=
  .next (if s.resetHold.held then s.setSd i present else (s.setSd i present).portSignal i present)

/-! ## START_OF_FRAME (R16, R17, R18) -/

/-- A start of frame in INTEGRATING: an integration discard, and the quiet timer restarts (R15, R16). -/
def LinePort.discardStart (now : LocalCount) (p : LinePort) : LinePort :=
  { p.restartQuiet now with
    counters := { p.counters with started := p.counters.started + 1, discards := p.counters.discards + 1 } }

/-- A start of frame in ACTIVE: an earlier frame still in progress is abandoned, and the frame is counted and stamped (R17, R18, R24). -/
def LinePort.beginFrame (reading : Stamp) (p : LinePort) : LinePort :=
  { p.abandon with
    frame := some (reading.less p.config.deskew)
    counters := { p.abandon.counters with started := p.abandon.counters.started + 1 } }

/-- The port takes a start of frame (R17). -/
def State.portStart (i : LineId) (s : State) : State :=
  match (s.line i).state with
  | .disabled => s
  | .down => s
  | .integrating => s.setLine i ((s.line i).discardStart s.now)
  | .active => s.setLine i ((s.line i).beginFrame s.reading)

/-- START_OF_FRAME. -/
def execStartOfFrame (i : LineId) (s : State) : Host.Outcome State Fault Refusal := whenReleased (State.portStart i) s

/-! ## END_OF_FRAME (R15, R17, R19 to R23) -/

/-- The descriptor of an accepted frame (R22). -/
def descriptorOf (i : LineId) (stamp : Stamp) (bytes : List Byte) : Descriptor :=
  { line := i, stamp := stamp, frameLength := bytes.length, window := bytes.take Config.windowBytes }

/-- The bad-run count after one more bad-check frame (R20). -/
def addBadRun (n : BitVec 8) : BitVec 8 := if n.toNat < 255 then n + 1 else 255

/-- A frame judged bad check; when it brings the count to a limit that is not 0, the line goes back to INTEGRATING (R19, R20, R21). -/
def State.judgeBad (i : LineId) (p : LinePort) (s : State) : State :=
  let p := { p with badRun := addBadRun p.badRun, counters := { p.counters with badCheck := p.counters.badCheck + 1 } }
  if p.config.badRunLimit ≠ 0 ∧ p.badRun.toNat = p.config.badRunLimit then
    s.changeLine i .badRun (p.integrate s.now)
  else s.setLine i p

/-- A frame judged good by its check is accepted: its length is within the limits and the FIFO has room (R19, R23). -/
def LinePort.accepts (bytes : List Byte) (p : LinePort) : Bool :=
  decide (p.config.minLength ≤ bytes.length ∧ bytes.length ≤ p.config.maxLength ∧ p.fifo.length < Config.fifoDepth)

/-- A frame judged good by its check: runt, giant, accepted or overrun, the first that applies (R19, R23). -/
def LinePort.judgeGood (i : LineId) (stamp : Stamp) (bytes : List Byte) (p : LinePort) : LinePort :=
  if bytes.length < p.config.minLength then
    { p with counters := { p.counters with runts := p.counters.runts + 1 } }
  else if p.config.maxLength < bytes.length then
    { p with counters := { p.counters with giants := p.counters.giants + 1 } }
  else if p.fifo.length < Config.fifoDepth then
    { p with
      badRun := 0
      fifo := p.fifo ++ [descriptorOf i stamp bytes]
      counters := { p.counters with accepted := p.counters.accepted + 1 } }
  else
    { p with badRun := 0, counters := { p.counters with overruns := p.counters.overruns + 1 } }

/-- The port takes an end of frame: with no frame in progress it is ignored as a frame, and restarts the quiet timer in INTEGRATING
(R15, R17); a frame in progress is judged (R19), and the descriptor of an accepted one may end the arbiter's wait (R31). -/
def State.portEnd (i : LineId) (good : Bool) (bytes : List Byte) (s : State) : State :=
  let p := s.line i
  match p.frame with
  | none => if p.state = .integrating then s.setLine i (p.restartQuiet s.now) else s
  | some stamp =>
    if good then (if p.accepts bytes then s.noteAppend i else s).setLine i ({ p with frame := none }.judgeGood i stamp bytes)
    else s.judgeBad i { p with frame := none }

/-- END_OF_FRAME. -/
def execEndOfFrame (i : LineId) (good : Bool) (bytes : List Byte) (s : State) : Host.Outcome State Fault Refusal :=
  whenReleased (State.portEnd i good bytes) s

/-! ## QUIET_TIMER_EXPIRY (R15) -/

/-- The quiet timer expires when its deadline has passed and the line is still INTEGRATING; otherwise there is no expiry (log 4). -/
def State.portQuiet (i : LineId) (s : State) : State :=
  let p := s.line i
  if p.state = .integrating ∧ due p.quiet s.now = true then
    s.changeLine i .integrated { p with state := .active, quiet := none }
  else s

/-- QUIET_TIMER_EXPIRY. -/
def execQuietTimerExpiry (i : LineId) (s : State) : Host.Outcome State Fault Refusal := whenReleased (State.portQuiet i) s

/-! ## Requests (R11, R12, R26, R27) -/

/-- The line port carries out ENABLE LINE (R11). -/
def ownEnableLine (payload : List Byte) (s : State) : State × Reply :=
  match lineNamed payload with
  | none => (s, .bare .range)
  | some i =>
    let p := s.line i
    match p.state with
    | .disabled =>
      if p.signal then (s.changeLine i .enabled (p.integrate s.now), .ok [])
      else (s.changeLine i .enabled { p with state := .down, badRun := 0 }, .ok [])
    | .down => (s, .ok [])
    | .integrating => (s, .ok [])
    | .active => (s, .ok [])

/-- The line port carries out DISABLE LINE (R12). -/
def ownDisableLine (payload : List Byte) (s : State) : State × Reply :=
  match lineNamed payload with
  | none => (s, .bare .range)
  | some i =>
    match (s.line i).state with
    | .disabled => (s, .ok [])
    | .down => (s.changeLine i .disabled ((s.line i).stopIn .disabled), .ok [])
    | .integrating => (s.changeLine i .disabled ((s.line i).stopIn .disabled), .ok [])
    | .active => (s.changeLine i .disabled ((s.line i).stopIn .disabled), .ok [])

/-- The line port carries out CONFIGURE LINE: line, then state, then parameters (R26). -/
def ownConfigureLine (payload : List Byte) (s : State) : State × Reply :=
  match lineNamed payload with
  | none => (s, .bare .range)
  | some i =>
    if (s.line i).state = .disabled then
      match LineConfig.parse payload with
      | some c => (s.setLine i { s.line i with config := c }, .ok [])
      | none => (s, .bare .range)
    else (s, .bare .state)

/-- The eight counters in the order of R201. -/
def LineCounters.toList (c : LineCounters) : List Counter :=
  [c.started, c.accepted, c.badCheck, c.runts, c.giants, c.discards, c.aborted, c.overruns]

/-- The fields of a QUERY LINE result (R27, R201). -/
def State.lineFields (s : State) (i : LineId) : List Byte :=
  let p := s.line i
  [BitVec.ofNat 8 i.val, p.state.code, boolCode p.signal] ++ p.config.bytes ++ [p.badRun, BitVec.ofNat 8 p.fifo.length] ++
    counterBytes p.counters.toList ++ counterBytes [s.classifier.unclaimed[i], s.classifier.short[i]]

/-- The line port and the classifier carry out QUERY LINE (R27; both at one moment, log 17). -/
def ownQueryLine (payload : List Byte) (s : State) : State × Reply :=
  match lineNamed payload with
  | none => (s, .bare .range)
  | some i => (s, .ok (s.lineFields i))

end Sys2Proof.Machine
end

