-- ==== Sys2Proof/Machine/TimeBase.lean ====
section
/-! DEFINITION. The time base (chapter The Time Base): the advance with the local count, changes of state, steps, slews, SLEW_COMPLETE, and what
the time base does with SET TIME, ADJUST TIME, SLEW and SET RATE. -/

namespace Sys2Proof.Machine

/-! ## Rates (R119) -/

/-- The slew term s in 1/16 ppb: the rate with the sign of the requested amount (R127). -/
def SlewFlight.term (sl : SlewFlight) : Int := if 0 < sl.requested then 16 * sl.rate else -(16 * sl.rate)

/-- The slew term s in 1/16 ppb; 0 when no slew is in flight (R119). -/
def TimeBase.slewTerm (t : TimeBase) : Int :=
  match t.slew with
  | some sl => sl.term
  | none => 0

/-- The rate offset r in 1/16 ppb: f + p + s, clamped (R119). -/
def TimeBase.rateOffset (t : TimeBase) : Int := clamp Config.rateLimit (t.f + t.p + t.slewTerm)

/-! ## The advance (R115, R127) -/

/-- The requested amount of a slew, in units of 1/16 of 10^-9 ns. -/
def SlewFlight.goal (sl : SlewFlight) : Int := sl.requested * Config.unitsPerQuarter

/-- The amount applied after n more nanoseconds of local count; the last part is exact (R127). -/
def SlewFlight.appliedAfter (sl : SlewFlight) (n : Nat) : Int :=
  if 0 < sl.requested then min (sl.applied + n * sl.term) sl.goal else max (sl.applied + n * sl.term) sl.goal

/-- A slew after n nanoseconds of local count (R127). -/
def SlewFlight.advance (n : Nat) (sl : SlewFlight) : SlewFlight := { sl with applied := sl.appliedAfter n }

/-- What n nanoseconds at the slew term would apply beyond the requested amount (R127: the time base adds the remainder and no more). -/
def TimeBase.slewExcess (t : TimeBase) (n : Nat) : Int :=
  match t.slew with
  | some sl => sl.applied + n * sl.term - sl.appliedAfter n
  | none => 0

/-- The whole time value in units of 1/16 of 10^-9 ns (R115). -/
def TimeBase.units (t : TimeBase) : Int := (t.value.toQuarters : Int) * Config.unitsPerQuarter + t.sub.val

/-- The units by which the time value advances in n nanoseconds: 16 × 10^9 + r a nanosecond, less what a completed slew no longer adds (R115, R127). -/
def TimeBase.advanceUnits (t : TimeBase) (n : Nat) : Int := n * (16000000000 + t.rateOffset) - t.slewExcess n

/-- The time base after n nanoseconds of local count (R115, R117, R127). -/
def TimeBase.advance (n : Nat) (t : TimeBase) : TimeBase :=
  let u := ((t.units + t.advanceUnits n) % (timeModulus * Config.unitsPerQuarter : Nat)).toNat
  { t with
    value := .ofQuarters (u / Config.unitsPerQuarter)
    sub := Fin.ofNat 4000000000 u
    slew := t.slew.map (SlewFlight.advance n)
    localCount := t.localCount + BitVec.ofNat 64 n }

/-- n nanoseconds of local count pass. While the part is held in reset the time base does not advance (R136, R192). -/
def State.elapse (n : Nat) (s : State) : State := if s.resetHold.held then s else { s with time := s.time.advance n }

/-! ## The end of a slew (R128, R134) -/

/-- The amount applied so far in quarter-nanoseconds, truncated toward zero (R127, R6). -/
def SlewFlight.appliedQuarters (sl : SlewFlight) : Int := sl.applied.tdiv Config.unitsPerQuarter

/-- The cause with which a slew ends: COMPLETE once the amount applied has reached the requested amount, whatever would end it; otherwise that
event's own cause (R127, R134; log 27, DEDUCED). -/
def SlewFlight.endCause (cause : SlewEndCause) (sl : SlewFlight) : SlewEndCause := if sl.applied = sl.goal then .complete else cause

/-- A slew in flight ends: one SLEW_END record and a raise of OP_DONE (R128, R134). -/
def State.endSlew (cause : SlewEndCause) (s : State) : State :=
  match s.time.slew with
  | none => s
  | some sl =>
    ({ s with time := { s.time with slew := none } }.offerNow
      (.slewEnd (sl.endCause cause) sl.requested sl.appliedQuarters sl.rate)).raise .opDone .empty

/-- SLEW_COMPLETE: the amount applied has reached the requested amount (R127); otherwise there is no completion (log 4). An event that ends a slew
with a record before its SLEW_END takes this completion first (R129, log 27). -/
def State.completeSlew (s : State) : State :=
  match s.time.slew with
  | some sl => if sl.applied = sl.goal then s.endSlew .complete else s
  | none => s

/-- SLEW_COMPLETE. -/
def execSlewComplete (s : State) : Host.Outcome State Fault Refusal := whenReleased State.completeSlew s

/-! ## Changes of state (R120, R121) -/

/-- A change of time-base state. On entry into TRACKING a slew in flight ends first, its record stamped with the old state (log 11); p becomes 0
on entry into TRACKING and on leaving it, and is 0 in the other states (R119, R120). On entry into HOLDOVER the discipline unit records the local
count, and the timer stops on leaving it (R153). Then one STATE record, stamped after the change, and a raise of TIME_STATE (R121). -/
def State.changeTime (new : TimeState) (cause : StateCause) (s : State) : State :=
  let old := s.time.state
  let s := if new = TimeState.tracking then s.endSlew .tracking else s
  let s := { s with
    time := { s.time with state := new, p := 0 }
    discipline := { s.discipline with holdoverEntry := if new = TimeState.holdover then some s.now else none } }
  (s.offerNow (.state old new cause)).raise .timeState (.timeState new)

/-! ## Steps (R118, R122, R135) -/

/-- A step to a new value: steps 1 to 5 of R122, behind a completion that is due (R129, log 27). -/
def State.stepTo (cause : StepCause) (new : TimeValue) (s : State) : State :=
  let old := s.time.value
  let s := s.completeSlew
  let s := { s with time := { s.time with value := new, sub := 0, epoch := s.time.epoch + 1 } }
  (s.offerNow (.step cause old new s.time.epoch)).endSlew .stepped

/-- A step by an offset in quarter-nanoseconds (R124, R131). -/
def State.stepBy (cause : StepCause) (offset : Int) (s : State) : State := s.stepTo cause (s.time.value.add offset)

/-! ## Requests (R123, R124, R126, R130) -/

/-- The time base carries out SET TIME; in UNSET the step is followed by the change to FREE (R122, R123). -/
def ownSetTime (payload : List Byte) (s : State) : State × Reply :=
  match TimeValue.parse payload with
  | none => (s, .bare .range)
  | some v =>
    let t := s.stepTo .set v
    (if s.time.state = .unset then t.changeTime .free .timeSet else t, .ok [])

/-- The largest offset of ADJUST TIME, 2^40 ns in quarter-nanoseconds (R124). -/
def maxAdjust : Int := 2 ^ 42

/-- The time base carries out ADJUST TIME; RANGE before STATE (R124). -/
def ownAdjustTime (payload : List Byte) (s : State) : State × Reply :=
  let offset := signedAt payload 0 8
  if offset < -maxAdjust ∨ maxAdjust < offset then (s, .bare .range)
  else if s.time.state = .unset then (s, .bare .state)
  else (s.stepBy .adjust offset, .ok [])

/-- The largest amount of SLEW, 500,000,000 ns in quarter-nanoseconds (R126). -/
def maxSlew : Int := 2000000000

/-- The amount and the rate of a SLEW pass check 3 of R126. -/
def slewInRange (f amount : Int) (rate : Nat) : Bool :=
  decide (-maxSlew ≤ amount ∧ amount ≤ maxSlew) && within 1 200000 rate && decide ((f.natAbs : Int) + 16 * rate ≤ Config.rateLimit)

/-- A slew starts (R127). -/
def State.startSlew (amount : Int) (rate : Nat) (s : State) : State :=
  { s with time := { s.time with slew := some { requested := amount, applied := 0, rate := rate } } }

/-- The time base carries out SLEW: state, then cancel, then range (R126, R128). -/
def ownSlew (payload : List Byte) (s : State) : State × Reply :=
  let amount := signedAt payload 0 4
  let rate := fieldAt payload 4 4
  if s.time.state = .unset ∨ s.time.state = .tracking then (s, .bare .state)
  else if amount = 0 then (s.endSlew .cancelled, .ok [])
  else if slewInRange s.time.f amount rate then ((s.endSlew .replaced).startSlew amount rate, .ok [])
  else (s, .bare .range)

/-- The rate of the slew in flight in 1/16 ppb, 0 with none (R130). -/
def TimeBase.slewRate (t : TimeBase) : Int :=
  match t.slew with
  | some sl => 16 * sl.rate
  | none => 0

/-- The frequency term of a SET RATE is in range (R130). -/
def rateInRange (t : TimeBase) (f : Int) : Bool :=
  decide (-Config.freqLimit ≤ f ∧ f ≤ Config.freqLimit) && (t.slew.isNone || decide ((f.natAbs : Int) + t.slewRate ≤ Config.rateLimit))

/-- The time base carries out SET RATE (R130). -/
def ownSetRate (payload : List Byte) (s : State) : State × Reply :=
  let f := signedAt payload 0 4
  if s.time.state = .tracking then (s, .bare .state)
  else if rateInRange s.time f then ({ s with time := { s.time with f := f } }, .ok [])
  else (s, .bare .range)

end Sys2Proof.Machine
end

