-- ==== Sys2Proof/Machine/Discipline.lean ====
section
/-! DEFINITION. The reference monitors and the discipline unit (chapter Reference Inputs and Discipline): REFERENCE_PULSE, REFERENCE_TIMEOUT,
HOLDOVER_TIMER_EXPIRY, and CONFIGURE REFERENCE, CONFIGURE DISCIPLINE, TRACK, MEASURE and READ TIME. -/

namespace Sys2Proof.Machine

/-! ## Monitors -/

/-- A monitor's state by name. -/
def Watch.state : Watch → MonitorState
  | .off => .off
  | .absent => .absent
  | .qualifying _ _ => .qualifying
  | .qualified _ _ => .qualified

/-- The last accepted pulse, in QUALIFYING and QUALIFIED. -/
def Watch.last : Watch → Option LocalCount
  | .off => none
  | .absent => none
  | .qualifying _ last => some last
  | .qualified last _ => some last

/-- The qualify window W in nanoseconds (R138). -/
def State.windowNs (s : State) : Nat := s.discipline.params.window * 1000

/-- A monitor's timeout deadline: last accepted pulse + 10^9 + W (R138; a view, log 13). -/
def State.timeoutDeadline (r : RefId) (s : State) : Option LocalCount :=
  (s.monitor r).watch.last.map fun last => after last (1000000000 + s.windowNs)

/-- The interval of a pulse now (R138). -/
def State.interval (last : LocalCount) (s : State) : Nat := (s.now - last).toNat

/-- A good interval: within 10^9 − W to 10^9 + W, bounds included (R138). -/
def State.goodInterval (last : LocalCount) (s : State) : Bool :=
  within (1000000000 - s.windowNs) (1000000000 + s.windowNs) (s.interval last)

/-- A monitor with another state. -/
def State.setWatch (r : RefId) (w : Watch) (s : State) : State := s.setMonitor r { s.monitor r with watch := w }

/-- A change of monitor state: one REFERENCE record, and a raise of the REFERENCE source with the states of both monitors after the change (R143). -/
def State.changeMonitor (r : RefId) (w : Watch) (cause : MonitorCause) (s : State) : State :=
  let old := (s.monitor r).watch.state
  let s := s.setWatch r w
  (s.offerNow (.reference r old w.state cause)).raise .reference
    (.monitors (s.monitor .a).watch.state (s.monitor .b).watch.state)

/-! ## The followed reference (R147, R148) -/

/-- The references a policy names, in order of preference (R147). -/
def Policy.names : Policy → List RefId
  | .none => []
  | .a => [.a]
  | .b => [.b]
  | .aThenB => [.a, .b]
  | .bThenA => [.b, .a]

/-- A monitor is QUALIFIED. -/
def State.isQualified (s : State) (r : RefId) : Bool := (s.monitor r).watch.state == .qualified

/-- The reference to follow: the first that the policy names whose monitor is QUALIFIED (R147). -/
def State.choice (s : State) : Option RefId := s.discipline.policy.names.find? s.isQualified

/-- Why a re-choice is made: a TRACK, or a change of state of a monitor (R147). -/
inductive ChoiceEvent where
  | track
  | monitor (r : RefId)
deriving DecidableEq, Repr

/-- The cause of a switch (R147): POLICY for a TRACK; QUALIFIED when the new reference is the one whose monitor has just changed, which it can be
only by entering QUALIFIED; LOST otherwise. -/
def switchCause (event : ChoiceEvent) (new : Option RefId) : SwitchCause :=
  match event with
  | .track => .policy
  | .monitor r => if new = some r then .qualified else .lost

/-- The followed reference replaced, with a SWITCH record when it changes (R147); p becomes 0 when one reference takes another's place in
TRACKING (R148). -/
def State.follow (event : ChoiceEvent) (new : Option RefId) (s : State) : State :=
  if new = s.discipline.followed then s
  else
    let old := s.discipline.followed
    let s := { s with discipline := { s.discipline with followed := new } }
    let s := s.offerNow (.switch old new (switchCause event new))
    if s.time.state = .tracking ∧ old.isSome ∧ new.isSome then { s with time := { s.time with p := 0 } } else s

/-- The move of the time-base state after a re-choice (R148). -/
def State.moveState (s : State) : State :=
  match s.discipline.followed, s.time.state with
  | some _, .tracking => s
  | some _, .unset => s.changeTime .tracking .referenceFollowed
  | some _, .free => s.changeTime .tracking .referenceFollowed
  | some _, .holdover => s.changeTime .tracking .referenceFollowed
  | none, .tracking =>
    if s.discipline.policy = .none then s.changeTime .free .policyNone else s.changeTime .holdover .referenceLost
  | none, .holdover => if s.discipline.policy = .none then s.changeTime .free .policyNone else s
  | none, .unset => s
  | none, .free => s

/-- The re-choice (R147) and the move of the state (R148). -/
def State.rechoose (event : ChoiceEvent) (s : State) : State := (s.follow event s.choice).moveState

/-! ## Measurement (R155, R156) -/

/-- The result of a measurement in 1/16 ppb, present when an interval is complete (R155, R156). -/
def Measurement.result (m : Measurement) : Option Int :=
  if m.intervals = 0 then none
  else some ((16 * ((m.span.toNat : Int) - m.intervals * 1000000000)).tdiv m.intervals)

/-- A measurement ends: one MEASURE_END record and a raise of OP_DONE (R156). -/
def State.endMeasure (cause : MeasureCause) (s : State) : State :=
  match s.discipline.measurement with
  | none => s
  | some m =>
    ({ s with discipline := { s.discipline with measurement := none } }.offerNow
      (.measureEnd m.ref cause m.n m.intervals m.result)).raise .opDone .empty

/-- A measurement on this reference ends (R156). -/
def State.endMeasureOn (r : RefId) (cause : MeasureCause) (s : State) : State :=
  match s.discipline.measurement with
  | some m => if m.ref = r then s.endMeasure cause else s
  | none => s

/-- An accepted pulse taken into a measurement: its first pulse, or one more interval (R155). -/
def Measurement.takePulse (now : LocalCount) (m : Measurement) : Measurement :=
  match m.first with
  | none => { m with first := some now }
  | some first => { m with intervals := m.intervals + 1, span := now - first }

/-- An accepted pulse of a measurement's monitor; it ends COMPLETE when the intervals reach N (R155). -/
def State.measurePulse (r : RefId) (s : State) : State :=
  match s.discipline.measurement with
  | none => s
  | some m =>
    if m.ref = r then
      let m := m.takePulse s.now
      let s := { s with discipline := { s.discipline with measurement := some m } }
      if m.first.isSome ∧ m.intervals = m.n then s.endMeasure .complete else s
    else s

/-! ## Phase capture and the tracking law (R144, R149 to R152) -/

/-- The phase error e of a capture, in quarter-nanoseconds (R144). -/
def phaseError (v : TimeValue) : Int :=
  let q := v.nanos.val * 4 + v.quarters.val
  if q < 2000000000 then q else (q : Int) - 4000000000

/-- The phase error captured at a pulse of a reference now: the reading less the reference deskew (R144). -/
def State.capture (r : RefId) (s : State) : Int := phaseError (s.reading.less (s.monitor r).deskew).value

/-- The phase term −e/S in 1/16 ppb, truncated toward zero and clamped (R151, R152). -/
def phaseTerm (e : Int) (settle : Nat) : Int := clamp Config.rateLimit ((-(4 * e)).tdiv settle)

/-- The frequency term f − e/(4S) in 1/16 ppb, the division truncated toward zero, clamped (R152). -/
def freqTerm (f e : Int) (settle : Nat) : Int := clamp Config.freqLimit (f - e.tdiv settle)

/-- The tracking law on a phase error (R149 to R152); T is compared in quarter-nanoseconds. -/
def State.trackingLaw (e : Int) (s : State) : State :=
  let d := s.discipline.params
  if (e.natAbs : Int) ≤ d.threshold * 4000 then
    { s with time := { s.time with f := freqTerm s.time.f e d.settle, p := phaseTerm e d.settle } }
  else if d.stepPermitted then
    let s := s.stepBy .discipline (-e)
    { s with time := { s.time with p := 0 } }
  else
    { s with
      time := { s.time with p := phaseTerm e d.settle }
      discipline := { s.discipline with largeErrors := s.discipline.largeErrors + 1 } }

/-- The law applied to an accepted pulse, when it is of the followed reference and the time base is TRACKING (R149). -/
def State.disciplinePulse (r : RefId) (e : Int) (s : State) : State :=
  if s.discipline.followed = some r ∧ s.time.state = .tracking then s.trackingLaw e else s

/-! ## REFERENCE_TIMEOUT (R142) -/

/-- A monitor enters ABSENT: the re-choice follows, and a measurement on it ends LOST (R142, R147, R156). -/
def State.loseMonitor (r : RefId) (cause : MonitorCause) (s : State) : State :=
  ((s.changeMonitor r .absent cause).rechoose (.monitor r)).endMeasureOn r .lost

/-- The timeout of a monitor whose deadline is reached; otherwise there is no timeout (R142, log 4). -/
def State.timeoutMonitor (r : RefId) (s : State) : State :=
  if due (s.timeoutDeadline r) s.now then s.loseMonitor r .timeout else s

/-- REFERENCE_TIMEOUT. -/
def execReferenceTimeout (r : RefId) (s : State) : Host.Outcome State Fault Refusal := whenReleased (State.timeoutMonitor r) s

/-! ## REFERENCE_PULSE (R138 to R144) -/

/-- The early-pulses total one higher (R142). -/
def State.countEarly (r : RefId) (s : State) : State :=
  s.setMonitor r { s.monitor r with earlyPulses := (s.monitor r).earlyPulses + 1 }

/-- An accepted pulse of a monitor that is QUALIFIED after it: the law, then the measurement (R148, R149, R155). -/
def State.acceptQualified (r : RefId) (e : Int) (s : State) : State := (s.disciplinePulse r e).measurePulse r

/-- A pulse judged by the monitor's state (R140, R141, R142); e is the phase error captured if the pulse is accepted. The pulse that qualifies the
monitor may take the time base into TRACKING, and finds a due completion of a slew taken first (R129, log 27). -/
def State.judgePulse (r : RefId) (e : Int) (s : State) : State :=
  match (s.monitor r).watch with
  | .off => s
  | .absent => (s.changeMonitor r (.qualifying 1 s.now) .firstPulse).rechoose (.monitor r)
  | .qualifying k last =>
    if s.goodInterval last then
      if s.discipline.params.count ≤ k + 1 then
        ((s.completeSlew.changeMonitor r (.qualified s.now false) .qualified).rechoose (.monitor r)).acceptQualified r e
      else s.setWatch r (.qualifying (k + 1) s.now)
    else s.setWatch r (.qualifying 1 s.now)
  | .qualified last early =>
    if s.goodInterval last then (s.setWatch r (.qualified s.now false)).acceptQualified r e
    else if early then (s.countEarly r).loseMonitor r .early
    else (s.countEarly r).setWatch r (.qualified last true)

/-- An interval above 10^9 + W: the timeout was due before this pulse (R138). -/
def State.overdue (r : RefId) (s : State) : Bool :=
  match (s.monitor r).watch.last with
  | some last => decide (1000000000 + s.windowNs < s.interval last)
  | none => false

/-- A pulse taken by a monitor (R138). A pulse behind an overdue timeout finds the timeout taken first (log 12, DEDUCED from R142). -/
def State.takePulse (r : RefId) (edge : Edge) (s : State) : State :=
  if (s.monitor r).edge = edge then
    (if s.overdue r then s.loseMonitor r .timeout else s).judgePulse r (s.capture r)
  else s

/-- REFERENCE_PULSE: the input shows an edge; the edge that is not the active one is no pulse, and a monitor in OFF takes none (R138). -/
def execReferencePulse (r : RefId) (edge : Edge) (s : State) : Host.Outcome State Fault Refusal :=
  whenReleased (State.takePulse r edge) s

/-! ## HOLDOVER_TIMER_EXPIRY (R153) -/

/-- The holdover timer's deadline: the recorded entry plus H, when H is above 0 and the state is HOLDOVER (R153; a view, log 13). -/
def State.holdoverDeadline (s : State) : Option LocalCount :=
  if s.time.state = .holdover ∧ 0 < s.discipline.params.holdoverLimit then
    s.discipline.holdoverEntry.map fun entry => after entry (s.discipline.params.holdoverLimit * 1000000000)
  else none

/-- The holdover timer expires when its deadline is reached (R153); otherwise there is no expiry (log 4). -/
def State.expireHoldover (s : State) : State :=
  if due s.holdoverDeadline s.now then s.changeTime .free .holdoverLimit else s

/-- HOLDOVER_TIMER_EXPIRY. -/
def execHoldoverTimerExpiry (s : State) : Host.Outcome State Fault Refusal := whenReleased State.expireHoldover s

/-! ## Requests (R132, R139, R145, R146, R154) -/

/-- The state a monitor is given by CONFIGURE REFERENCE, and the cause of the change; none when the state is kept (table of R139). -/
def referenceMove (m : Monitor) (q : ReferenceRequest) : Option (Watch × MonitorCause) :=
  match m.watch with
  | .off => if q.enable then some (.absent, .enabled) else none
  | .absent => if q.enable then none else some (.off, .disabled)
  | .qualifying _ _ => if q.enable then (if m.edge = q.edge then none else some (.absent, .edgeChanged)) else some (.off, .disabled)
  | .qualified _ _ => if q.enable then (if m.edge = q.edge then none else some (.absent, .edgeChanged)) else some (.off, .disabled)

/-- The cause with which a monitor's change ends a measurement on it (R139, R156). -/
def measureCauseOf (cause : MonitorCause) : MeasureCause := if cause = .disabled then .disabled else .lost

/-- The monitors carry out CONFIGURE REFERENCE (R139). -/
def ownConfigureReference (payload : List Byte) (s : State) : State × Reply :=
  match ReferenceRequest.parse payload with
  | none => (s, .bare .range)
  | some q =>
    let m := s.monitor q.ref
    let s := s.setMonitor q.ref { m with enable := q.enable, deskew := q.deskew, edge := q.edge }
    match referenceMove m q with
    | none => (s, .ok [])
    | some (w, cause) =>
      (((s.changeMonitor q.ref w cause).rechoose (.monitor q.ref)).endMeasureOn q.ref (measureCauseOf cause), .ok [])

/-- The discipline unit carries out CONFIGURE DISCIPLINE; then the timeouts of REF A and REF B and the expiry of the holdover timer that the new
parameters bring (R145, R153). -/
def ownConfigureDiscipline (payload : List Byte) (s : State) : State × Reply :=
  if s.time.state = .tracking then (s, .bare .state)
  else
    match DisciplineParams.parse payload with
    | none => (s, .bare .range)
    | some d =>
      let s := { s with discipline := { s.discipline with params := d } }
      (((s.timeoutMonitor .a).timeoutMonitor .b).expireHoldover, .ok [])

/-- The fields of a TRACK result (R146, R157, R201). -/
def State.trackFields (s : State) : List Byte :=
  [s.discipline.policy.code, refCode s.discipline.followed] ++
    counterBytes [s.discipline.largeErrors, s.monitors.a.earlyPulses, s.monitors.b.earlyPulses]

/-- The policy replaced (R146). -/
def State.setPolicy (policy : Policy) (s : State) : State := { s with discipline := { s.discipline with policy := policy } }

/-- The discipline unit carries out TRACK (R146), behind a due completion of a slew (R129, log 27). -/
def ownTrack (payload : List Byte) (s : State) : State × Reply :=
  match Policy.ofCode (byteAt payload 0) with
  | none => (s, .bare .range)
  | some policy =>
    let s := (s.completeSlew.setPolicy policy).rechoose .track
    (s, .ok s.trackFields)

/-- The discipline unit carries out MEASURE (R154). -/
def ownMeasure (payload : List Byte) (s : State) : State × Reply :=
  let n := byteAt payload 1
  match RefId.ofCode (byteAt payload 0) with
  | none => (s, .bare .range)
  | some r =>
    if n = 0 then (s.endMeasure .cancelled, .ok [])
    else if within 2 64 n then
      if s.discipline.measurement.isSome then (s, .bare .state)
      else if s.isQualified r then
        ({ s with discipline := { s.discipline with
            measurement := some { ref := r, n := n, intervals := 0, first := none, span := 0 } } }, .ok [])
      else (s, .bare .state)
    else (s, .bare .range)

/-- The holdover remaining, in nanoseconds of local count (R132, R153). -/
def State.holdoverRemaining (s : State) : Option Nat := s.holdoverDeadline.map fun d => (d - s.now).toNat

/-- The slew block of a READ TIME result (R201). -/
def slewFields (slew : Option SlewFlight) : List Byte :=
  match slew with
  | some sl => 1 :: leSigned 4 sl.requested ++ leSigned 4 sl.appliedQuarters ++ leBytes 4 sl.rate
  | none => zeros 13

/-- The fields of a READ TIME result (R132, R201). -/
def State.timeFields (s : State) : List Byte :=
  s.reading.block ++ leSigned 4 s.time.f ++ leSigned 4 s.time.p ++ leSigned 4 s.time.slewTerm ++ leSigned 4 s.time.rateOffset ++
    slewFields s.time.slew ++ leBytes 8 s.now.toNat ++
    [(s.monitor .a).watch.state.code, (s.monitor .b).watch.state.code, refCode s.discipline.followed, s.discipline.policy.code] ++
    optField 8 s.holdoverRemaining

/-- The time base, the monitors and the discipline unit carry out READ TIME (R132). -/
def ownReadTime (_payload : List Byte) (s : State) : State × Reply := (s, .ok s.timeFields)

end Sys2Proof.Machine
end

