-- ==== Sys2Proof/Machine/RecordQueue.lean ====
section
/-! DEFINITION. The record queue (chapter The Record Queue): removal at the head, CONFIGURE QUEUE, STATISTICS_TIMER_EXPIRY, the fetch with its
end, and RECORD_FRAME_COMPLETE. The taking of an offer is in Ops. -/

namespace Sys2Proof.Machine

/-! ## Removal (R164, R167) -/

/-- The re-arm level: the threshold less 512, or 0 below (R164). -/
def RecordQueue.rearmLevel (q : RecordQueue) : Nat := q.threshold - 512

/-- The warning after a removal: armed again at the re-arm level or below (R164). -/
def RecordQueue.rearm (q : RecordQueue) : RecordQueue :=
  if q.armed = false ∧ q.entries.length ≤ q.rearmLevel then { q with armed := true } else q

/-- The head entry removed: an ordinary record passes to records delivered (R163, R167). -/
def RecordQueue.removeHead (q : RecordQueue) : RecordQueue :=
  match q.entries with
  | .record _ :: rest => { q with entries := rest, delivered := q.delivered + 1 }.rearm
  | .marker _ :: rest => { q with entries := rest }.rearm
  | [] => q

/-! ## CONFIGURE QUEUE (R165) -/

/-- Seconds in nanoseconds of local count. -/
def secondsNs (n : Nat) : Nat := n * 1000000000

/-- The statistics timer started afresh: stopped with a period of 0 (R165, R174). -/
def statsStart (period : Nat) (now : LocalCount) : Option LocalCount :=
  if period = 0 then none else some (after now (secondsNs period))

/-- The queue under a new threshold and period: the warning compared with the new levels, the timer restarted (R165). -/
def RecordQueue.configure (threshold period : Nat) (now : LocalCount) (q : RecordQueue) : RecordQueue × List NoticeId :=
  let q := { q with threshold := threshold, period := period, statsDeadline := statsStart period now }
  if q.armed = true ∧ q.threshold ≤ q.entries.length then ({ q with armed := false }, [.queueWarning]) else (q.rearm, [])

/-- The record queue carries out CONFIGURE QUEUE (R165). -/
def ownConfigureQueue (payload : List Byte) (s : State) : State × Reply :=
  let threshold := fieldAt payload 0 2
  let period := fieldAt payload 2 2
  if within 256 4095 threshold && within 0 3600 period then
    ({ s with
        queue := (s.queue.configure threshold period s.now).1
        notices := s.notices.raiseAll (s.queue.configure threshold period s.now).2 }, .ok [])
  else (s, .bare .range)

/-! ## STATISTICS_TIMER_EXPIRY (R174, R175) -/

/-- The feeds in feed-number order. -/
def allFeeds : List FeedId := [0, 1, 2, 3, 4, 5, 6, 7, 8, 9, 10, 11, 12, 13, 14, 15]

/-- A feed is ARMED or RUNNING. -/
def Feed.isOpen (f : Feed) : Bool := f.state != .closed

/-- The STATS record of a feed (R175). -/
def State.statsOf (s : State) (i : FeedId) : StatsReport :=
  let f := s.feed i
  { feed := i, state := f.state, index := s.queue.periodIndex, counters := f.counters, holdLength := f.hold.length,
    gapCount := f.gaps.length, candidatePresent := f.candidate.isSome }

/-- One STATS record for each ARMED or RUNNING feed, F0 first (R175). -/
def State.offerStats (s : State) : State :=
  (allFeeds.filter fun i => (s.feed i).isOpen).foldl (fun t i => t.offerNow (.stats (s.statsOf i))) s

/-- An expiry: the index increments, and the next deadline is the reached deadline plus the period (R174). -/
def RecordQueue.nextPeriod (q : RecordQueue) (reached : LocalCount) : RecordQueue :=
  { q with periodIndex := q.periodIndex + 1, statsDeadline := some (after reached (secondsNs q.period)) }

/-- The statistics timer expires when its deadline is reached (R174); otherwise there is no expiry (log 4). -/
def State.expireStats (s : State) : State :=
  match s.queue.statsDeadline with
  | some d => if reached d s.now then { s with queue := s.queue.nextPeriod d }.offerStats else s
  | none => s

/-- STATISTICS_TIMER_EXPIRY. -/
def execStatisticsTimerExpiry (s : State) : Host.Outcome State Fault Refusal := whenReleased State.expireStats s

/-! ## The fetch (R166 to R172) -/

/-- The request kind of FETCH (R198). -/
def fetchKind : Byte := 0x29

/-- The request kind of HALT (R198). -/
def haltKind : Byte := 0x2A

/-- The request engine in a state (R181). -/
def State.setEngine (e : Engine) (s : State) : State := { s with link := { s.link with engine := e } }

/-- The fields of a FETCH result (R170, R201). -/
def State.fetchFields (cause : FetchEnd) (f : Fetch) (s : State) : List Byte :=
  [cause.code] ++ leBytes 4 f.sent.toNat ++ leBytes 2 s.queue.entries.length

/-- A fetch ends: the engine is IDLE, the FETCH's result is queued, and after it the results of the HALTs taken, in their order (R170, R171). -/
def State.endFetch (cause : FetchEnd) (f : Fetch) (s : State) : State :=
  f.halts.foldl (fun t tag => t.answer haltKind tag (.ok []))
    ((s.setEngine .idle).answer fetchKind f.tag (.ok (s.fetchFields cause f)))

/-- A fetch looks for its next record: a halting one ends HALTED, a bounded one ends COUNT at its Nth record, and EMPTY on an empty queue; any
other runs on (R168, R169, R171). -/
def State.fetchLooks (f : Fetch) (s : State) : State :=
  if f.halts.isEmpty = false then s.endFetch .halted f
  else if f.n = 0 then s.setEngine (.delivering f)
  else if f.sent.toNat = f.n then s.endFetch .count f
  else if s.queue.entries.isEmpty then s.endFetch .empty f
  else s.setEngine (.delivering f)

/-- The request engine takes a FETCH in IDLE (R166). -/
def State.beginFetch (tag : Byte) (n : Nat) (s : State) : State := s.fetchLooks { tag := tag, n := n, sent := 0, halts := [] }

/-- A RECORD frame is in progress. -/
def LinkInterface.sendsRecord (l : LinkInterface) : Bool :=
  match l.outFrame with
  | some f => f.kind == .record
  | none => false

/-- The request engine takes a HALT in DELIVERING: the fetch is halting, and it ends at once unless a RECORD frame is in progress (R171). -/
def State.haltFetch (tag : Byte) (f : Fetch) (s : State) : State :=
  let f := { f with halts := f.halts ++ [tag] }
  if s.link.sendsRecord then s.setEngine (.delivering f) else s.endFetch .halted f

/-! ## RECORD_FRAME_COMPLETE (R167) -/

/-- The lane idle at the end of a frame. -/
def State.freeLane (s : State) : State := { s with link := { s.link with outFrame := none } }

/-- The last byte of a RECORD frame goes out: the head entry is removed, records sent increments, and the fetch looks for its next record (R167).
With no RECORD frame in progress there is no completion (log 4). -/
def State.completeRecord (s : State) : State :=
  if s.link.sendsRecord then
    let t := { s.freeLane with queue := s.queue.removeHead }
    match s.link.engine with
    | .delivering f => t.fetchLooks { f with sent := f.sent + 1 }
    | .idle => t
    | .executing _ => t
  else s

/-- RECORD_FRAME_COMPLETE. -/
def execRecordFrameComplete (s : State) : Host.Outcome State Fault Refusal := whenReleased State.completeRecord s

end Sys2Proof.Machine
end

