-- ==== Sys2Proof/Machine/Link.lean ====
section
/-! DEFINITION. The link interface (chapter The Control Link): link errors, the arrival of complete frames, the request engine, SET NOTICES,
STATUS and RESTART, the outbound arbiter, the completions of START, RESULT and NOTICE frames, LINK_DOWN and LINK_UP. -/

namespace Sys2Proof.Machine

/-! ## Inbound frames (R178 to R182) -/

/-- An inbound frame discarded as a link error (R178). -/
def State.linkError (s : State) : State :=
  { s with link := { s.link with linkErrors := s.link.linkErrors + 1 } }.raise .linkError .empty

/-- The inbound framer in a state (R178). -/
def State.setFramer (f : Framer) (s : State) : State := { s with link := { s.link with framer := f } }

/-- A complete frame, judged by R179: it is a link error when the result FIFO is full, and otherwise arrives whole and acts. A payload that no
frame can carry ends as R178 ends it (log 25). -/
def State.judgeFrame (payload : List Byte) (act : State → State) (s : State) : State :=
  if Config.maxPayload < payload.length ∨ Config.resultPlaces ≤ s.link.occupancy then s.linkError else act s.owe

/-- The inbound framer brings a complete frame: in IGNORING its bytes are discarded; otherwise the framer returns to HUNTING (R178). -/
def State.arrive (payload : List Byte) (act : State → State) (s : State) : State :=
  match s.link.framer with
  | .ignoring => s
  | .hunting => (s.setFramer .hunting).judgeFrame payload act
  | .receiving _ => (s.setFramer .hunting).judgeFrame payload act

/-- The owning block carries a request out and its result is queued (R182). -/
def State.carryOut (kind tag : Byte) (own : State → State × Reply) (s : State) : State := (own s).1.answer kind tag (own s).2

/-- The length check of R179; a request of the right length goes on to the request engine. -/
def State.checkLength (kind tag : Byte) (payload : List Byte) (act : State → State) (s : State) : State :=
  if requestLength kind = some payload.length then act s else s.answer kind tag (.bare .length)

/-- The request engine takes a request other than FETCH and HALT, and in IDLE its owning block carries it out in the same step, no event coming
between (R181, R182; log 5, DESIGN CHOICE). -/
def State.engage (kind tag : Byte) (own : State → State × Reply) (s : State) : State :=
  match s.link.engine with
  | .idle => s.carryOut kind tag own
  | .executing _ => s.answer kind tag (.bare .busy)
  | .delivering _ => s.answer kind tag (.bare .busy)

/-- The request engine takes a request other than FETCH and HALT, and in IDLE enters EXECUTING, where the request waits for its owning block (R181,
R182). While the link is DOWN its result is already lost (R185). -/
def State.handToOwner (kind tag : Byte) (payload : List Byte) (s : State) : State :=
  match s.link.engine with
  | .idle => s.setEngine (.executing { kind := kind, tag := tag, payload := payload, lost := !s.link.up })
  | .executing _ => s.answer kind tag (.bare .busy)
  | .delivering _ => s.answer kind tag (.bare .busy)

/-- The link state set, nothing else changing (R184). -/
def State.setUp (up : Bool) (s : State) : State := { s with link := { s.link with up := up } }

/-- The owning block carries out the request in EXECUTING, and the engine returns to IDLE (R181, R182). When the link has gone DOWN meanwhile, the
request acts as one carried out while it is DOWN, its result discarded, whether the link is UP again or not (R185, log 6). -/
def State.finish (r : Request) (own : State → State × Reply) (s : State) : State :=
  if r.lost then (((s.setEngine .idle).setUp false).carryOut r.kind r.tag own).setUp s.link.up
  else (s.setEngine .idle).carryOut r.kind r.tag own

/-- A frame of a request kind other than FETCH and HALT, from its arrival to its result (R178 to R182). -/
def State.request (kind : Byte) (own : List Byte → State → State × Reply) (tag : Byte) (payload : List Byte) (s : State) : State :=
  s.arrive payload (State.checkLength kind tag payload (State.engage kind tag (own payload)))

/-- The request engine takes a FETCH (R166, R181). While the link is DOWN the fetch it would begin has already ended, without a result (R173, log 6). -/
def State.engageFetch (tag : Byte) (payload : List Byte) (s : State) : State :=
  match s.link.engine with
  | .idle => if s.link.up then s.beginFetch tag (fieldAt payload 0 2) else s
  | .executing _ => s.answer fetchKind tag (.bare .busy)
  | .delivering _ => s.answer fetchKind tag (.bare .busy)

/-- The request engine takes a HALT (R171, R181). -/
def State.engageHalt (tag : Byte) (s : State) : State :=
  match s.link.engine with
  | .idle => s.answer haltKind tag (.bare .state)
  | .executing _ => s.answer haltKind tag (.bare .state)
  | .delivering f => s.haltFetch tag f

/-! ## SET NOTICES, STATUS, RESTART (R189 to R191) -/

/-- The link interface carries out SET NOTICES (R189). -/
def ownSetNotices (payload : List Byte) (s : State) : State × Reply :=
  let notices := s.notices.enable (BitVec.ofNat 8 (byteAt payload 0))
  ({ s with notices := notices }, .ok [notices.pendingSet])

/-- The fields of a STATUS result (R190, R201). -/
def State.statusFields (s : State) : List Byte :=
  leBytes 1 s.link.occupancy ++ leBytes 4 s.link.linkErrors.toNat ++ [s.notices.enabledSet, s.notices.pendingSet, s.time.state.code] ++
    leBytes 2 s.time.epoch.toNat ++ [s.monitors.a.watch.state.code, s.monitors.b.watch.state.code] ++
    (s.lines.toList.map fun p => p.state.code) ++ (s.feeds.toList.map fun f => f.state.code) ++ leBytes 2 s.freeCount ++
    leBytes 2 s.queue.entries.length ++ leBytes 8 s.queue.offered.toNat ++ leBytes 8 s.queue.delivered.toNat ++
    leBytes 8 s.queue.lost.toNat

/-- The blocks carry out STATUS (R190; all at one moment, log 17). -/
def ownStatus (_payload : List Byte) (s : State) : State × Reply := (s, .ok s.statusFields)

/-- The request kind of RESTART (R198). -/
def restartKind : Byte := 0x32

/-- The link interface carries out RESTART: the framer ignores what follows (R191). While the link is DOWN the result is discarded, and the
restart is due at that moment (R185). -/
def ownRestart (_payload : List Byte) (s : State) : State × Reply :=
  ({ s with link := { s.link with framer := .ignoring, restartDue := s.link.restartDue || !s.link.up } }, .ok [])

/-! ## OUTBOUND_CHOICE (R183, R187, R193) -/

/-- An outbound frame begins (R177, R183). -/
def State.beginOut (kind : OutKind) (frameKind tag : Byte) (payload : List Byte) (s : State) : State :=
  { s with link := { s.link with outFrame := some { kind := kind, bytes := wireFrame frameKind tag payload } } }

/-- The NOTICE frame of a source begins, and the source is cleared (R187). -/
def State.beginNotice (id : NoticeId) (s : State) : State :=
  let src := s.notices.get id
  { s with notices := s.notices.set id src.clear }.beginOut (.notice id src.occurrences src.summary) noticeFrameKind 0
    (noticePayload id src.occurrences src.summary)

/-- A RECORD frame, when a fetch is running and not halting and the queue is not empty (R167, R183). -/
def State.chooseRecord (s : State) : State :=
  match s.link.engine, s.queue.entries with
  | .delivering f, e :: _ => if f.halts.isEmpty then s.beginOut .record recordFrameKind f.tag e.bytes else s
  | .delivering _, [] => s
  | .idle, _ => s
  | .executing _, _ => s

/-- The arbiter's choice by priority: START, RESULT, NOTICE, RECORD (R183). -/
def State.choose (s : State) : State :=
  match s.link.startOwed with
  | some cause => s.beginOut .start startFrameKind 0 (startPayload cause s.time.state)
  | none =>
    match s.link.queued with
    | r :: _ => s.beginOut .result resultFrameKind r.tag r.payload
    | [] =>
      match s.notices.ready with
      | some id => s.beginNotice id
      | none => s.chooseRecord

/-- The arbiter may choose: the link is UP, the lane is idle, and no restart is due (R183; log 16). -/
def LinkInterface.mayChoose (l : LinkInterface) : Bool := l.up && l.outFrame.isNone && !l.restartDue

/-- OUTBOUND_CHOICE: with nothing waiting nothing is chosen. -/
def execOutboundChoice (s : State) : Host.Outcome State Fault Refusal :=
  whenReleased (fun s => if s.link.mayChoose then s.choose else s) s

/-! ## Completions (R180, R184, R191, R193) -/

/-- The result is that of a RESTART taken (R191). -/
def Result.isRestart (r : Result) : Bool := r.kind == restartKind && r.code == .ok

/-- The oldest result leaves the FIFO; when it is a RESTART's, the restart is due (R180, R191). -/
def LinkInterface.popResult (l : LinkInterface) : LinkInterface :=
  match l.queued with
  | r :: rest => { l with outFrame := none, queued := rest, restartDue := l.restartDue || r.isRestart }
  | [] => { l with outFrame := none }

/-- The last byte of a RESULT frame goes out (R180); with none in progress there is no completion (log 4). -/
def State.completeResult (s : State) : State :=
  match s.link.outFrame with
  | some f => if f.kind = .result then { s with link := s.link.popResult } else s
  | none => s

/-- RESULT_FRAME_COMPLETE. -/
def execResultFrameComplete (s : State) : Host.Outcome State Fault Refusal := whenReleased State.completeResult s

/-- The START frame is no longer owed, and the framer leaves IGNORING for HUNTING (R178, R193). -/
def LinkInterface.started (l : LinkInterface) : LinkInterface :=
  { l with outFrame := none, startOwed := none, framer := if l.framer = .ignoring then .hunting else l.framer }

/-- The last byte of the START frame goes out (R193); with none in progress there is no completion (log 4). -/
def State.completeStart (s : State) : State :=
  match s.link.outFrame with
  | some f => if f.kind = .start then { s with link := s.link.started } else s
  | none => s

/-- START_FRAME_COMPLETE. -/
def execStartFrameComplete (s : State) : Host.Outcome State Fault Refusal := whenReleased State.completeStart s

/-- The last byte of a NOTICE frame goes out: the frame counts as sent, its source was cleared at the choice (R184, R187); with none in progress
there is no completion (log 4). -/
def State.completeNotice (s : State) : State :=
  match s.link.outFrame with
  | some f =>
    match f.kind with
    | .notice _ _ _ => s.freeLane
    | .start => s
    | .result => s
    | .record => s
  | none => s

/-- NOTICE_FRAME_COMPLETE. -/
def execNoticeFrameComplete (s : State) : Host.Outcome State Fault Refusal := whenReleased State.completeNotice s

/-! ## LINK_DOWN and LINK_UP (R184, R185, R188) -/

/-- An abandoned NOTICE frame's contents merged back into its source; the other kinds of frame leave the notice table as it is (R184, R188). -/
def NoticeTable.abandon (t : NoticeTable) (f : Option OutFrame) : NoticeTable :=
  match f with
  | some f =>
    match f.kind with
    | .notice id occurrences summary => t.set id ((t.get id).mergeBack occurrences summary)
    | .start => t
    | .result => t
    | .record => t
  | none => t

/-- The engine when the link goes DOWN: a running fetch ends without a result (R173, R184); a request in EXECUTING goes on, its result lost (R185). -/
def Engine.cut : Engine → Engine
  | .delivering _ => .idle
  | .idle => .idle
  | .executing r => .executing { r with lost := true }

/-- The framer when the link goes DOWN: a frame in RECEIVING is discarded without count; IGNORING stays (R178). -/
def Framer.cut : Framer → Framer
  | .ignoring => .ignoring
  | .hunting => .hunting
  | .receiving _ => .hunting

/-- The link interface when the link goes DOWN (R184); a RESTART's result emptied from the FIFO makes the restart due (R185, R191). -/
def LinkInterface.drop (l : LinkInterface) : LinkInterface :=
  { l with
    up := false
    framer := l.framer.cut
    engine := l.engine.cut
    queued := []
    owed := 0
    outFrame := none
    restartDue := l.restartDue || l.queued.any Result.isRestart }

/-- The link goes DOWN (R184). -/
def State.dropLink (s : State) : State :=
  if s.link.up then { s with notices := s.notices.abandon s.link.outFrame, link := s.link.drop } else s

/-- The link's signal-detect input takes a level (R184). -/
def State.setLinkSd (present : Bool) (s : State) : State := { s with pins := { s.pins with linkSd := present } }

/-- LINK_DOWN. While the part is held in reset the input changes and no event is taken (R192); the level is read at the release (R184). -/
def execLinkDown (s : State) : Host.Outcome State Fault Refusal :=
  .next (if s.resetHold.held then s.setLinkSd false else (s.setLinkSd false).dropLink)

/-- LINK_UP. While the part is held in reset only the input changes (R192). -/
def execLinkUp (s : State) : Host.Outcome State Fault Refusal :=
  .next (if s.resetHold.held then s.setLinkSd true else (s.setLinkSd true).setUp true)

end Sys2Proof.Machine
end

