-- ==== Sys2Proof/Machine/Requests.lean ====
section
/-! DEFINITION. The request frames (R198), each from its arrival whole to its result; frames of an unknown kind; and the inbound framer's way
with the bytes of the lane (R178), which INBOUND_FRAME_DISCARD runs. -/

namespace Sys2Proof.Machine

/-! ## The requests -/

/-- A ENABLE LINE frame. -/
def State.takeEnableLine (tag : Byte) (payload : List Byte) (s : State) : State := s.request 0x01 ownEnableLine tag payload

/-- ENABLE_LINE. -/
def execEnableLine (tag : Byte) (payload : List Byte) (s : State) : Host.Outcome State Fault Refusal :=
  whenReleased (State.takeEnableLine tag payload) s

/-- A DISABLE LINE frame. -/
def State.takeDisableLine (tag : Byte) (payload : List Byte) (s : State) : State := s.request 0x02 ownDisableLine tag payload

/-- DISABLE_LINE. -/
def execDisableLine (tag : Byte) (payload : List Byte) (s : State) : Host.Outcome State Fault Refusal :=
  whenReleased (State.takeDisableLine tag payload) s

/-- A CONFIGURE LINE frame. -/
def State.takeConfigureLine (tag : Byte) (payload : List Byte) (s : State) : State := s.request 0x03 ownConfigureLine tag payload

/-- CONFIGURE_LINE. -/
def execConfigureLine (tag : Byte) (payload : List Byte) (s : State) : Host.Outcome State Fault Refusal :=
  whenReleased (State.takeConfigureLine tag payload) s

/-- A QUERY LINE frame. -/
def State.takeQueryLine (tag : Byte) (payload : List Byte) (s : State) : State := s.request 0x04 ownQueryLine tag payload

/-- QUERY_LINE. -/
def execQueryLine (tag : Byte) (payload : List Byte) (s : State) : Host.Outcome State Fault Refusal :=
  whenReleased (State.takeQueryLine tag payload) s

/-- A WRITE SELECTOR frame. -/
def State.takeWriteSelector (tag : Byte) (payload : List Byte) (s : State) : State := s.request 0x08 ownWriteSelector tag payload

/-- WRITE_SELECTOR. -/
def execWriteSelector (tag : Byte) (payload : List Byte) (s : State) : Host.Outcome State Fault Refusal :=
  whenReleased (State.takeWriteSelector tag payload) s

/-- A CLEAR SELECTOR frame. -/
def State.takeClearSelector (tag : Byte) (payload : List Byte) (s : State) : State := s.request 0x09 ownClearSelector tag payload

/-- CLEAR_SELECTOR. -/
def execClearSelector (tag : Byte) (payload : List Byte) (s : State) : Host.Outcome State Fault Refusal :=
  whenReleased (State.takeClearSelector tag payload) s

/-- A READ SELECTOR frame. -/
def State.takeReadSelector (tag : Byte) (payload : List Byte) (s : State) : State := s.request 0x0A ownReadSelector tag payload

/-- READ_SELECTOR. -/
def execReadSelector (tag : Byte) (payload : List Byte) (s : State) : Host.Outcome State Fault Refusal :=
  whenReleased (State.takeReadSelector tag payload) s

/-- A CONFIGURE FEED frame. -/
def State.takeConfigureFeed (tag : Byte) (payload : List Byte) (s : State) : State := s.request 0x10 ownConfigureFeed tag payload

/-- CONFIGURE_FEED. -/
def execConfigureFeed (tag : Byte) (payload : List Byte) (s : State) : Host.Outcome State Fault Refusal :=
  whenReleased (State.takeConfigureFeed tag payload) s

/-- A OPEN FEED frame. -/
def State.takeOpenFeed (tag : Byte) (payload : List Byte) (s : State) : State := s.request 0x11 ownOpenFeed tag payload

/-- OPEN_FEED. -/
def execOpenFeed (tag : Byte) (payload : List Byte) (s : State) : Host.Outcome State Fault Refusal :=
  whenReleased (State.takeOpenFeed tag payload) s

/-- A CLOSE FEED frame. -/
def State.takeCloseFeed (tag : Byte) (payload : List Byte) (s : State) : State := s.request 0x12 ownCloseFeed tag payload

/-- CLOSE_FEED. -/
def execCloseFeed (tag : Byte) (payload : List Byte) (s : State) : Host.Outcome State Fault Refusal :=
  whenReleased (State.takeCloseFeed tag payload) s

/-- A QUERY FEED frame. -/
def State.takeQueryFeed (tag : Byte) (payload : List Byte) (s : State) : State := s.request 0x13 ownQueryFeed tag payload

/-- QUERY_FEED. -/
def execQueryFeed (tag : Byte) (payload : List Byte) (s : State) : Host.Outcome State Fault Refusal :=
  whenReleased (State.takeQueryFeed tag payload) s

/-- A SET TIME frame. -/
def State.takeSetTime (tag : Byte) (payload : List Byte) (s : State) : State := s.request 0x18 ownSetTime tag payload

/-- SET_TIME. -/
def execSetTime (tag : Byte) (payload : List Byte) (s : State) : Host.Outcome State Fault Refusal :=
  whenReleased (State.takeSetTime tag payload) s

/-- A ADJUST TIME frame. -/
def State.takeAdjustTime (tag : Byte) (payload : List Byte) (s : State) : State := s.request 0x19 ownAdjustTime tag payload

/-- ADJUST_TIME. -/
def execAdjustTime (tag : Byte) (payload : List Byte) (s : State) : Host.Outcome State Fault Refusal :=
  whenReleased (State.takeAdjustTime tag payload) s

/-- A SLEW frame. -/
def State.takeSlew (tag : Byte) (payload : List Byte) (s : State) : State := s.request 0x1A ownSlew tag payload

/-- SLEW. -/
def execSlew (tag : Byte) (payload : List Byte) (s : State) : Host.Outcome State Fault Refusal :=
  whenReleased (State.takeSlew tag payload) s

/-- A SET RATE frame. -/
def State.takeSetRate (tag : Byte) (payload : List Byte) (s : State) : State := s.request 0x1B ownSetRate tag payload

/-- SET_RATE. -/
def execSetRate (tag : Byte) (payload : List Byte) (s : State) : Host.Outcome State Fault Refusal :=
  whenReleased (State.takeSetRate tag payload) s

/-- A READ TIME frame. -/
def State.takeReadTime (tag : Byte) (payload : List Byte) (s : State) : State := s.request 0x1C ownReadTime tag payload

/-- READ_TIME. -/
def execReadTime (tag : Byte) (payload : List Byte) (s : State) : Host.Outcome State Fault Refusal :=
  whenReleased (State.takeReadTime tag payload) s

/-- A CONFIGURE REFERENCE frame. -/
def State.takeConfigureReference (tag : Byte) (payload : List Byte) (s : State) : State := s.request 0x20 ownConfigureReference tag payload

/-- CONFIGURE_REFERENCE. -/
def execConfigureReference (tag : Byte) (payload : List Byte) (s : State) : Host.Outcome State Fault Refusal :=
  whenReleased (State.takeConfigureReference tag payload) s

/-- A CONFIGURE DISCIPLINE frame. -/
def State.takeConfigureDiscipline (tag : Byte) (payload : List Byte) (s : State) : State := s.request 0x21 ownConfigureDiscipline tag payload

/-- CONFIGURE_DISCIPLINE. -/
def execConfigureDiscipline (tag : Byte) (payload : List Byte) (s : State) : Host.Outcome State Fault Refusal :=
  whenReleased (State.takeConfigureDiscipline tag payload) s

/-- A TRACK frame. -/
def State.takeTrack (tag : Byte) (payload : List Byte) (s : State) : State := s.request 0x22 ownTrack tag payload

/-- TRACK. -/
def execTrack (tag : Byte) (payload : List Byte) (s : State) : Host.Outcome State Fault Refusal :=
  whenReleased (State.takeTrack tag payload) s

/-- A MEASURE frame. -/
def State.takeMeasure (tag : Byte) (payload : List Byte) (s : State) : State := s.request 0x23 ownMeasure tag payload

/-- MEASURE. -/
def execMeasure (tag : Byte) (payload : List Byte) (s : State) : Host.Outcome State Fault Refusal :=
  whenReleased (State.takeMeasure tag payload) s

/-- A CONFIGURE QUEUE frame. -/
def State.takeConfigureQueue (tag : Byte) (payload : List Byte) (s : State) : State := s.request 0x28 ownConfigureQueue tag payload

/-- CONFIGURE_QUEUE. -/
def execConfigureQueue (tag : Byte) (payload : List Byte) (s : State) : Host.Outcome State Fault Refusal :=
  whenReleased (State.takeConfigureQueue tag payload) s

/-- A FETCH frame (R166). -/
def State.takeFetch (tag : Byte) (payload : List Byte) (s : State) : State :=
  s.arrive payload (State.checkLength fetchKind tag payload (State.engageFetch tag payload))

/-- FETCH. -/
def execFetch (tag : Byte) (payload : List Byte) (s : State) : Host.Outcome State Fault Refusal :=
  whenReleased (State.takeFetch tag payload) s

/-- A HALT frame (R171). -/
def State.takeHalt (tag : Byte) (payload : List Byte) (s : State) : State :=
  s.arrive payload (State.checkLength haltKind tag payload (State.engageHalt tag))

/-- HALT. -/
def execHalt (tag : Byte) (payload : List Byte) (s : State) : Host.Outcome State Fault Refusal :=
  whenReleased (State.takeHalt tag payload) s

/-- A SET NOTICES frame. -/
def State.takeSetNotices (tag : Byte) (payload : List Byte) (s : State) : State := s.request 0x30 ownSetNotices tag payload

/-- SET_NOTICES. -/
def execSetNotices (tag : Byte) (payload : List Byte) (s : State) : Host.Outcome State Fault Refusal :=
  whenReleased (State.takeSetNotices tag payload) s

/-- A STATUS frame. -/
def State.takeStatus (tag : Byte) (payload : List Byte) (s : State) : State := s.request 0x31 ownStatus tag payload

/-- STATUS. -/
def execStatus (tag : Byte) (payload : List Byte) (s : State) : Host.Outcome State Fault Refusal :=
  whenReleased (State.takeStatus tag payload) s

/-- A RESTART frame. -/
def State.takeRestart (tag : Byte) (payload : List Byte) (s : State) : State := s.request 0x32 ownRestart tag payload

/-- RESTART. -/
def execRestart (tag : Byte) (payload : List Byte) (s : State) : Host.Outcome State Fault Refusal :=
  whenReleased (State.takeRestart tag payload) s

/-! ## Complete frames by kind (R179) -/

/-- A frame whose kind is not a request kind: it arrives whole and is answered UNKNOWN (R179). -/
def State.takeUnknown (kind tag : Byte) (payload : List Byte) (s : State) : State :=
  s.arrive payload (State.answer kind tag (.bare .unknown))

/-- What the owning block of a request kind does with a request, FETCH and HALT apart (R182, R198); no other kind has an owner. -/
def ownOf (kind : Byte) (payload : List Byte) (s : State) : State × Reply :=
  match kind.toNat with
  | 0x01 => ownEnableLine payload s
  | 0x02 => ownDisableLine payload s
  | 0x03 => ownConfigureLine payload s
  | 0x04 => ownQueryLine payload s
  | 0x08 => ownWriteSelector payload s
  | 0x09 => ownClearSelector payload s
  | 0x0A => ownReadSelector payload s
  | 0x10 => ownConfigureFeed payload s
  | 0x11 => ownOpenFeed payload s
  | 0x12 => ownCloseFeed payload s
  | 0x13 => ownQueryFeed payload s
  | 0x18 => ownSetTime payload s
  | 0x19 => ownAdjustTime payload s
  | 0x1A => ownSlew payload s
  | 0x1B => ownSetRate payload s
  | 0x1C => ownReadTime payload s
  | 0x20 => ownConfigureReference payload s
  | 0x21 => ownConfigureDiscipline payload s
  | 0x22 => ownTrack payload s
  | 0x23 => ownMeasure payload s
  | 0x28 => ownConfigureQueue payload s
  | 0x30 => ownSetNotices payload s
  | 0x31 => ownStatus payload s
  | 0x32 => ownRestart payload s
  | _ => (s, .bare .unknown)

/-- A complete frame, taken by its kind (R179, R198), with what becomes of a request other than FETCH and HALT in the request engine. -/
def State.takeFrameWith (engage : State → State) (kind tag : Byte) (payload : List Byte) (s : State) : State :=
  if kind = fetchKind then s.takeFetch tag payload
  else if kind = haltKind then s.takeHalt tag payload
  else if requestLength kind = none then s.takeUnknown kind tag payload
  else s.arrive payload (State.checkLength kind tag payload engage)

/-- A complete frame whose request is carried out in the step of its arrival (log 5). -/
def State.takeFrame (kind tag : Byte) (payload : List Byte) : State → State :=
  State.takeFrameWith (State.engage kind tag (ownOf kind payload)) kind tag payload

/-- A complete frame from the lane, whose request waits in EXECUTING for its owning block (R181). -/
def State.takeLaneFrame (kind tag : Byte) (payload : List Byte) : State → State :=
  State.takeFrameWith (State.handToOwner kind tag payload) kind tag payload

/-- UNKNOWN_KIND; a kind that is a request kind is that request (log 25). -/
def execUnknownKind (kind tag : Byte) (payload : List Byte) (s : State) : Host.Outcome State Fault Refusal :=
  whenReleased (State.takeFrame kind tag payload) s

/-! ## The inbound framer (R178) -/

/-- The payload length in the bytes collected after the start byte: kind, tag, then the two length bytes (R177). -/
def collectedLength (collected : List Byte) : Nat := fieldAt collected 2 2

/-- The bytes collected end the frame at the second length byte (R178). -/
def tooLong (collected : List Byte) : Bool := collected.length == 4 && decide (Config.maxPayload < collectedLength collected)

/-- The second CRC byte has been collected (R178). -/
def isWhole (collected : List Byte) : Bool := decide (4 ≤ collected.length) && collected.length == collectedLength collected + 6

/-- The CRC of a whole frame matches (R177). -/
def crcMatches (collected : List Byte) : Bool :=
  (collected.drop (collected.length - 2)) == leBytes 2 (crc16 (collected.take (collected.length - 2))).toNat

/-- The framer in RECEIVING after one more byte (R178). -/
def State.collect (collected : List Byte) (s : State) : State :=
  if tooLong collected then (s.setFramer .hunting).linkError
  else if isWhole collected then
    if crcMatches collected then
      (s.setFramer .hunting).takeLaneFrame (collected.getD 0 0) (collected.getD 1 0) ((collected.drop 4).take (collectedLength collected))
    else (s.setFramer .hunting).linkError
  else s.setFramer (.receiving collected)

/-- The framer takes one inbound byte (R178). -/
def State.takeByte (b : Byte) (s : State) : State :=
  match s.link.framer with
  | .ignoring => s
  | .hunting => if b = startByte then s.setFramer (.receiving []) else s
  | .receiving collected => s.collect (collected ++ [b])

/-- The framer takes inbound bytes in the order they arrive; a lane that is DOWN delivers none (R178, R184). -/
def State.takeBytes (bytes : List Byte) (s : State) : State := if s.link.up then bytes.foldl (fun t b => t.takeByte b) s else s

/-- INBOUND_FRAME_DISCARD: the bytes of a frame that the framer discards, or completes when its CRC matches (R178, log 7). -/
def execInboundFrameDiscard (bytes : List Byte) (s : State) : Host.Outcome State Fault Refusal :=
  whenReleased (State.takeBytes bytes) s

/-! ## A step with no command waiting -/

/-- With no command waiting, the owning block of a request in EXECUTING carries it out (R181, R182, R185; log 5), and otherwise one nanosecond of local
count passes (log 3). Both are DESIGN CHOICES. A part held in reset does neither (R192). -/
def State.idleStep (s : State) : State :=
  if s.resetHold.held then s
  else
    match s.link.engine with
    | .executing r => s.finish r (ownOf r.kind r.payload)
    | .idle => s.elapse 1
    | .delivering _ => s.elapse 1

end Sys2Proof.Machine
end

