-- ==== Sys2Proof/Machine/Resets.lean ====
section
/-! DEFINITION. The resets (R8, R191, R192): POWER_ON, LINE_RESET, SUPPLY_DIP, RESET_RELEASE and RESTART_EXECUTE. -/

namespace Sys2Proof.Machine

/-! ## The hold of a whole-part reset (R192) -/

/-- The reset cause chosen from those that arose since the part last left reset (R192). -/
def ResetHold.cause (h : ResetHold) : ResetCause :=
  if h.powerOn then .powerOn else if h.supplyDip then .supplyDip else .resetLine

/-- The part held in reset: every block at its reset values, the inputs and the waiting commands kept (R192; log 14, DESIGN CHOICE: what the blocks
hold during the hold). -/
def State.holdReset (h : ResetHold) (s : State) : State := State.fresh s.pins h h.cause s.pending

/-- POWER_ON: a cause of a whole-part reset arises (R192). -/
def execPowerOn (s : State) : Host.Outcome State Fault Refusal :=
  .next (s.holdReset { s.resetHold with held := true, powerOn := true })

/-- LINE_RESET: a cause of a whole-part reset arises (R192). -/
def execLineReset (s : State) : Host.Outcome State Fault Refusal :=
  .next (s.holdReset { s.resetHold with held := true, lineReset := true })

/-- SUPPLY_DIP: a cause of a whole-part reset arises (R192). -/
def execSupplyDip (s : State) : Host.Outcome State Fault Refusal :=
  .next (s.holdReset { s.resetHold with held := true, supplyDip := true })

/-- The part leaves reset: the signal levels are read, and a START frame is owed with the chosen cause (R10, R184, R192 to R194). -/
def State.leaveReset (s : State) : State := State.fresh s.pins .released s.resetHold.cause s.pending

/-- RESET_RELEASE: every cause has ended and the oscillator has settled (log 14). A part that is not held does not leave reset. -/
def execResetRelease (s : State) : Host.Outcome State Fault Refusal := .next (if s.resetHold.held then s.leaveReset else s)

/-! ## RESTART_EXECUTE (R191) -/

/-- The restart event: line ports, classifier and ingress arbiter, feed engine and hold pool, record queue and link interface are reset; time base,
monitors and discipline unit go on (R29, R46, R61, R114, R137, R158, R176, R191, R194). -/
def State.restartBlocks (s : State) : State :=
  { s with
    lines := linesReset s.pins
    classifier := .reset
    feeds := Vector.replicate 16 .reset
    queue := .reset
    notices := .reset
    link := .reset s.pins .restartRequest }

/-- RESTART_EXECUTE; with no restart due there is none (R191, log 4). -/
def execRestartExecute (s : State) : Host.Outcome State Fault Refusal :=
  whenReleased (fun s => if s.link.restartDue then s.restartBlocks else s) s

end Sys2Proof.Machine
end

