-- ==== Sys2Proof/Machine/Dispatch.lean ====
section
/-! DEFINITION. exec: one arm per command, each one call of its meaning. -/

namespace Sys2Proof.Machine

def exec (i : Instr) (s : State) : Host.Outcome State Fault Refusal :=
  match i with
  | .lineSignalChange line present => Sys2Proof.Machine.execLineSignalChange line present s
  | .startOfFrame line => Sys2Proof.Machine.execStartOfFrame line s
  | .endOfFrame line good bytes => Sys2Proof.Machine.execEndOfFrame line good bytes s
  | .quietTimerExpiry line => Sys2Proof.Machine.execQuietTimerExpiry line s
  | .ingressGrant => Sys2Proof.Machine.execIngressGrant s
  | .handOver => Sys2Proof.Machine.execHandOver s
  | .pairingTimerExpiry feed => Sys2Proof.Machine.execPairingTimerExpiry feed s
  | .gapTimerExpiry feed => Sys2Proof.Machine.execGapTimerExpiry feed s
  | .candidateExpiry feed => Sys2Proof.Machine.execCandidateExpiry feed s
  | .silenceDeadlineExpiry feed leg => Sys2Proof.Machine.execSilenceDeadlineExpiry feed leg s
  | .statisticsTimerExpiry => Sys2Proof.Machine.execStatisticsTimerExpiry s
  | .referencePulse ref edge => Sys2Proof.Machine.execReferencePulse ref edge s
  | .referenceTimeout ref => Sys2Proof.Machine.execReferenceTimeout ref s
  | .holdoverTimerExpiry => Sys2Proof.Machine.execHoldoverTimerExpiry s
  | .slewComplete => Sys2Proof.Machine.execSlewComplete s
  | .enableLine tag payload => Sys2Proof.Machine.execEnableLine tag payload s
  | .disableLine tag payload => Sys2Proof.Machine.execDisableLine tag payload s
  | .configureLine tag payload => Sys2Proof.Machine.execConfigureLine tag payload s
  | .queryLine tag payload => Sys2Proof.Machine.execQueryLine tag payload s
  | .writeSelector tag payload => Sys2Proof.Machine.execWriteSelector tag payload s
  | .clearSelector tag payload => Sys2Proof.Machine.execClearSelector tag payload s
  | .readSelector tag payload => Sys2Proof.Machine.execReadSelector tag payload s
  | .configureFeed tag payload => Sys2Proof.Machine.execConfigureFeed tag payload s
  | .openFeed tag payload => Sys2Proof.Machine.execOpenFeed tag payload s
  | .closeFeed tag payload => Sys2Proof.Machine.execCloseFeed tag payload s
  | .queryFeed tag payload => Sys2Proof.Machine.execQueryFeed tag payload s
  | .setTime tag payload => Sys2Proof.Machine.execSetTime tag payload s
  | .adjustTime tag payload => Sys2Proof.Machine.execAdjustTime tag payload s
  | .slew tag payload => Sys2Proof.Machine.execSlew tag payload s
  | .setRate tag payload => Sys2Proof.Machine.execSetRate tag payload s
  | .readTime tag payload => Sys2Proof.Machine.execReadTime tag payload s
  | .configureReference tag payload => Sys2Proof.Machine.execConfigureReference tag payload s
  | .configureDiscipline tag payload => Sys2Proof.Machine.execConfigureDiscipline tag payload s
  | .track tag payload => Sys2Proof.Machine.execTrack tag payload s
  | .measure tag payload => Sys2Proof.Machine.execMeasure tag payload s
  | .configureQueue tag payload => Sys2Proof.Machine.execConfigureQueue tag payload s
  | .fetch tag payload => Sys2Proof.Machine.execFetch tag payload s
  | .halt tag payload => Sys2Proof.Machine.execHalt tag payload s
  | .setNotices tag payload => Sys2Proof.Machine.execSetNotices tag payload s
  | .status tag payload => Sys2Proof.Machine.execStatus tag payload s
  | .restart tag payload => Sys2Proof.Machine.execRestart tag payload s
  | .unknownKind kind tag payload => Sys2Proof.Machine.execUnknownKind kind tag payload s
  | .inboundFrameDiscard bytes => Sys2Proof.Machine.execInboundFrameDiscard bytes s
  | .outboundChoice => Sys2Proof.Machine.execOutboundChoice s
  | .resultFrameComplete => Sys2Proof.Machine.execResultFrameComplete s
  | .recordFrameComplete => Sys2Proof.Machine.execRecordFrameComplete s
  | .startFrameComplete => Sys2Proof.Machine.execStartFrameComplete s
  | .linkDown => Sys2Proof.Machine.execLinkDown s
  | .linkUp => Sys2Proof.Machine.execLinkUp s
  | .powerOn => Sys2Proof.Machine.execPowerOn s
  | .lineReset => Sys2Proof.Machine.execLineReset s
  | .supplyDip => Sys2Proof.Machine.execSupplyDip s
  | .resetRelease => Sys2Proof.Machine.execResetRelease s
  | .restartExecute => Sys2Proof.Machine.execRestartExecute s
  | .noticeFrameComplete => Sys2Proof.Machine.execNoticeFrameComplete s

end Sys2Proof.Machine
end

