-- ==== Sys2Proof/Machine/Step.lean ====
section
/-! DEFINITION. One step: the command at the front of the queue, or, with none waiting, the end of a request in EXECUTING
(log 5) or a tick of the local count (log 3). -/

namespace Sys2Proof.Machine

/-- One step of the block. With a command waiting, the front one leaves the queue and acts. With none, a request in EXECUTING is
carried out, and otherwise one nanosecond of local count passes (DESIGN CHOICE, logs 3 and 5). -/
def step (s : State) : Host.Outcome State Fault Refusal :=
  match s.pending with
  | [] => .next s.idleStep
  | c :: rest => exec c { s with pending := rest }

/-- A command put at the front of the queue. -/
def State.push (c : Instr) (s : State) : State := { s with pending := c :: s.pending }

/-- The command a word spells, put at the front of the queue; no row of the opcode table gives bits, so no word spells one. -/
def State.withFetchWord (s : State) (nbits w : Nat) : State :=
  match decodeTableWord nbits w with
  | some c => s.push c
  | none => s

end Sys2Proof.Machine
end

