-- ==== Sys2Proof/Safety.lean ====
section
/-! DEFINITION. What stays true of the block at every step, and the conditions on a state under which a command has its effect. -/

namespace Sys2Proof.Machine

/-! ## Line ports (R10, R15, R16, R20, R22, R23, R28) -/

/-- Frames started are the frames counted under the seven outcomes, and the one in progress (R28). -/
def LinePort.Counted (p : LinePort) : Prop :=
  p.counters.started = p.counters.accepted + p.counters.badCheck + p.counters.runts + p.counters.giants + p.counters.discards +
    p.counters.aborted + p.counters.overruns + (if p.frame.isSome then 1 else 0)

/-- A descriptor on the FIFO of a line (R22). -/
def Descriptor.Sound (i : LineId) (d : Descriptor) : Prop :=
  d.line = i ∧ 16 ≤ d.window.length ∧ d.window.length = min d.frameLength Config.windowBytes

/-- The configuration of a line is within its ranges (R26). -/
def LineConfig.InRange (c : LineConfig) : Prop :=
  c.deskew ≤ maxDeskew ∧ 1 ≤ c.integration ∧ c.integration ≤ 10000 ∧ 16 ≤ c.minLength ∧ c.minLength ≤ 1024 ∧ 64 ≤ c.maxLength ∧
    c.maxLength ≤ 9600 ∧ c.badRunLimit ≤ 255 ∧ c.minLength ≤ c.maxLength

/-- The parts of a line port agree with its state (R10, R15, R16, R20, R21, R23). -/
structure LinePort.Sound (i : LineId) (p : LinePort) : Prop where
  down : p.state = .down → p.signal = false
  present : p.state = .integrating ∨ p.state = .active → p.signal = true
  quiet : p.quiet.isSome = true ↔ p.state = .integrating
  frame : p.frame.isSome = true → p.state = .active
  badRun : p.state ≠ .active → p.badRun = 0
  belowLimit : p.config.badRunLimit ≠ 0 → p.badRun.toNat < p.config.badRunLimit
  fifo : p.fifo.length ≤ Config.fifoDepth
  descriptors : ∀ d ∈ p.fifo, d.Sound i
  config : p.config.InRange

/-- The line ports' invariant; and a first append that is noted still waits for its grant, with the classifier free (R31, log 26). -/
def State.LinesSound (s : State) : Prop :=
  (∀ i : LineId, (s.line i).Counted ∧ (s.line i).Sound i ∧ (s.resetHold.held = false → (s.line i).signal = s.pins.sd[i])) ∧
    ∀ i : LineId, s.classifier.firstIn = some i → s.classifier.held = none ∧ (s.line i).fifo ≠ []

/-! ## Feeds (R47, R59, R92, R103) -/

/-- Every arrival taken is counted once, or is the candidate (R59). -/
def Feed.CountsCopies (f : Feed) : Prop :=
  f.counters.copiesA + f.counters.copiesB =
    f.counters.firstCopies + f.counters.twins + f.counters.repeats + f.counters.lateCopies + f.counters.strays +
      (if f.candidate.isSome then 1 else 0)

/-- Every record created is released once, or is held (R59). -/
def Feed.CountsRecords (f : Feed) : Prop :=
  f.counters.firstCopies = f.counters.wonA + f.counters.wonB + BitVec.ofNat 32 f.hold.length

/-- The two relations of R59, for every feed. -/
def State.CountersBalance (s : State) : Prop := ∀ i : FeedId, (s.feed i).CountsCopies ∧ (s.feed i).CountsRecords

/-- The parts that exist in some states of a feed only (R47). -/
def Feed.Shaped (f : Feed) : Prop :=
  match f.state with
  | .closed => f.hold = [] ∧ f.gaps = [] ∧ f.candidate = none ∧ f.legA = .none ∧ f.legB = .none
  | .armed => f.hold = [] ∧ f.gaps = [] ∧ f.candidate = none ∧ f.legA.state ≠ .none ∧ f.legB.state ≠ .none
  | .running _ => f.legA.state ≠ .none ∧ f.legB.state ≠ .none

/-- A leg has a silence deadline exactly while WAITING or ACTIVE (R47, R56). -/
def LegWatch.Timed (w : LegWatch) : Prop := w.deadline.isSome = true ↔ w.state = .waiting ∨ w.state = .active

/-- The feeds' invariant: the shared pool is never overdrawn, no gap list has more than four ranges, and every feed has the parts of its
state (R47, R92, R103). -/
def State.FeedsSound (s : State) : Prop :=
  heldCount s.feeds.toList ≤ Config.poolSize ∧
    ∀ i : FeedId, (s.feed i).Shaped ∧ (s.feed i).gaps.length ≤ Config.gapPlaces ∧ (s.feed i).legA.Timed ∧ (s.feed i).legB.Timed

/-! ## Time base and discipline (R119, R120, R127, R147, R153) -/

/-- A slew in flight is one that SLEW accepts, and has applied no more than was asked (R126, R127). -/
def SlewFlight.Sound (f : Int) (sl : SlewFlight) : Prop :=
  sl.requested ≠ 0 ∧ -maxSlew ≤ sl.requested ∧ sl.requested ≤ maxSlew ∧ 1 ≤ sl.rate ∧ sl.rate ≤ 200000 ∧
    (f.natAbs : Int) + 16 * sl.rate ≤ Config.rateLimit ∧
    (0 < sl.requested → 0 ≤ sl.applied ∧ sl.applied ≤ sl.goal) ∧ (sl.requested < 0 → sl.goal ≤ sl.applied ∧ sl.applied ≤ 0)

/-- The rate terms are within their limits, p is 0 outside TRACKING, and no slew is in flight in UNSET and TRACKING (R119, R120, R126). -/
structure TimeBase.Sound (t : TimeBase) : Prop where
  f : -Config.freqLimit ≤ t.f ∧ t.f ≤ Config.freqLimit
  p : -Config.rateLimit ≤ t.p ∧ t.p ≤ Config.rateLimit
  steered : t.state ≠ .tracking → t.p = 0
  slewing : t.slew.isSome = true → t.state = .free ∨ t.state = .holdover
  slew : ∀ sl, t.slew = some sl → sl.Sound t.f

/-- The followed reference is the policy's first QUALIFIED one, and the time base is TRACKING exactly while there is one (R147, R148); the entry of
a holdover is kept exactly in HOLDOVER (R153). -/
structure State.Following (s : State) : Prop where
  chosen : s.discipline.followed = s.choice
  tracking : s.time.state = .tracking ↔ s.discipline.followed.isSome = true
  policy : s.time.state = .holdover → s.discipline.policy ≠ .none
  entry : s.discipline.holdoverEntry.isSome = true ↔ s.time.state = .holdover

/-- A measurement in flight is on a QUALIFIED reference and is not complete (R154 to R156). -/
def State.Measuring (s : State) : Prop :=
  ∀ m, s.discipline.measurement = some m →
    s.isQualified m.ref = true ∧ 2 ≤ m.n ∧ m.n ≤ 64 ∧ m.intervals < m.n ∧ (m.first = none → m.intervals = 0)

/-- The invariant of the time base, the monitors and the discipline unit. -/
structure State.TimeSound (s : State) : Prop where
  base : s.time.Sound
  following : s.Following
  measuring : s.Measuring
  settle : 1 ≤ s.discipline.params.settle

/-! ## Record queue (R159 to R164) -/

def Entry.isMarker : Entry → Bool
  | .record _ => false
  | .marker _ => true

/-- No two OVERFLOW markers stand next to each other (R159). -/
def noTwinMarkers : List Entry → Bool
  | [] => true
  | e :: rest => !(e.isMarker && (rest.head?.map Entry.isMarker == some true)) && noTwinMarkers rest

/-- The ordinary records in a list of entries. -/
def ordinaryCount (entries : List Entry) : Nat := (entries.filter fun e => !e.isMarker).length

/-- The record queue's invariant (R159, R161 to R165). -/
structure RecordQueue.Sound (q : RecordQueue) : Prop where
  size : q.entries.length ≤ Config.queueSlots
  lastSlot : q.entries.length = Config.queueSlots → ∃ m, q.entries.getLast? = some (.marker m)
  apart : noTwinMarkers q.entries = true
  totals : q.offered = q.delivered + BitVec.ofNat 64 (ordinaryCount q.entries) + q.lost
  threshold : 256 ≤ q.threshold ∧ q.threshold ≤ 4095
  armed : q.armed = true → q.entries.length < q.threshold
  disarmed : q.armed = false → q.rearmLevel < q.entries.length
  timer : q.statsDeadline.isSome = true ↔ q.period ≠ 0

/-! ## Link (R178, R180, R181, R183, R184, R191, R193) -/

/-- The results owed: that of the request in EXECUTING unless it is lost, the running fetch's, and those of the HALTs taken (R166, R171, R180, R185). -/
def Engine.owes : Engine → Nat
  | .idle => 0
  | .executing r => if r.lost then 0 else 1
  | .delivering f => 1 + f.halts.length

/-- A frame in progress is backed by what it sends (R167, R180, R183). -/
def State.Backed (s : State) : Prop :=
  ∀ f, s.link.outFrame = some f →
    match f.kind with
    | .start => s.link.startOwed ≠ none
    | .result => s.link.queued ≠ []
    | .notice _ _ _ => True
    | .record => s.queue.entries ≠ [] ∧ ∃ g, s.link.engine = .delivering g

/-- A request that R181 takes into EXECUTING: it has a length that R179 allows, and is no FETCH and no HALT. -/
def Request.Owned (r : Request) : Prop := requestLength r.kind = some r.payload.length ∧ r.kind ≠ fetchKind ∧ r.kind ≠ haltKind

/-- The link interface's invariant. -/
structure State.LinkSound (s : State) : Prop where
  occupancy : s.link.occupancy ≤ Config.resultPlaces
  owed : s.link.owed = s.link.engine.owes
  executing : ∀ r, s.link.engine = .executing r → r.Owned
  halting : ∀ f, s.link.engine = .delivering f → f.halts ≠ [] → s.link.sendsRecord = true
  down : s.link.up = false → s.link.queued = [] ∧ s.link.engine.cut = s.link.engine ∧ s.link.outFrame = none ∧
    s.link.framer.cut = s.link.framer
  input : s.resetHold.held = false → s.link.up = s.pins.linkSd
  backed : s.Backed
  starting : s.link.startOwed ≠ none → s.link.framer = .ignoring ∧ s.link.engine = .idle ∧ s.link.queued = []
  restarting : s.link.restartDue = true → s.link.framer = .ignoring ∧ s.link.startOwed = none
  asked : ∀ r ∈ s.link.queued, r.isRestart = true → s.link.framer = .ignoring

/-! ## Conditions for a command's effect -/

/-- A complete frame of a request kind finds the link and the request engine ready for it: it arrives whole, its length is right, and the engine is
IDLE (R178 to R181). -/
structure State.Admits (s : State) (kind : Byte) (payload : List Byte) : Prop where
  released : s.resetHold.held = false
  up : s.link.up = true
  framer : s.link.framer ≠ .ignoring
  room : s.link.occupancy < Config.resultPlaces
  length : requestLength kind = some payload.length
  idle : s.link.engine = .idle

/-- The state with a request's result queued and the framer hunting again, everything else as it was (R178, R180, R200). -/
def State.replied (kind tag : Byte) (r : Reply) (s : State) : State :=
  { s with link := { s.link with
      framer := .hunting
      queued := s.link.queued ++ [{ tag := tag, kind := kind, code := r.code, fields := r.fields }] } }

/-- The state with the frame arrived whole: the framer hunting again and one more result owed (R178, R180). -/
def State.arrived (s : State) : State :=
  { s with link := { s.link with framer := .hunting, owed := s.link.owed + 1 } }

/-- Two states that agree on everything but the feeds, the record queue and the notice table. -/
structure SameButFeeds (s t : State) : Prop where
  pins : t.pins = s.pins
  resetHold : t.resetHold = s.resetHold
  lines : t.lines = s.lines
  classifier : t.classifier = s.classifier
  time : t.time = s.time
  monitors : t.monitors = s.monitors
  discipline : t.discipline = s.discipline
  link : t.link = s.link
  pending : t.pending = s.pending

/-- Two states that agree on everything but the time base, the monitors, the discipline unit, the record queue and the notice table. -/
structure SameButTime (s t : State) : Prop where
  pins : t.pins = s.pins
  resetHold : t.resetHold = s.resetHold
  lines : t.lines = s.lines
  classifier : t.classifier = s.classifier
  feeds : t.feeds = s.feeds
  localCount : t.time.localCount = s.time.localCount
  link : t.link = s.link
  pending : t.pending = s.pending

/-! ## Words of the statements -/

/-- A selector entry matches a descriptor: it is valid, it covers the line, its field lies within the window, and the field's bytes, the first most
significant, agree with the value in the bits of the mask (R33). -/
def Selector.Matches (e : Selector) (d : Descriptor) : Prop :=
  e.valid = true ∧ e.lineSet.getLsbD d.line.val = true ∧ e.offset + e.width ≤ d.window.length ∧
    BitVec.ofNat 32 (beNat ((d.window.drop e.offset).take e.width)) &&& e.mask = e.value &&& e.mask

/-- An entry that WRITE SELECTOR may write (R35). -/
def Selector.InRange (e : Selector) : Prop :=
  e.lineSet ≠ 0 ∧ (e.width = 1 ∨ e.width = 2 ∨ e.width = 4) ∧ e.offset + e.width ≤ 256 ∧
    e.mask.toNat < 2 ^ (8 * e.width) ∧ e.value.toNat < 2 ^ (8 * e.width)

/-- A profile that CONFIGURE FEED accepts (R50). -/
def Profile.InRange (c : Profile) : Prop :=
  (c.seqWidth = 2 ∨ c.seqWidth = 4 ∨ c.seqWidth = 8) ∧ c.seqOffset + c.seqWidth ≤ 256 ∧ c.sendOffset < 256 ∧
    (c.sendFormat ≠ .none → c.sendOffset + 8 ≤ 256) ∧ 1 ≤ c.pairing ∧ c.pairing ≤ 65535 ∧ 1 ≤ c.gap ∧ c.gap ≤ 65535 ∧
    1 ≤ c.silence ∧ c.silence ≤ 65535 ∧ 1 ≤ c.jumpLimit ∧ c.jumpLimit ≤ 1048576

/-- The feed engine may take the matched descriptor m, whose window holds the feed's sequence number, as the arrival a (R37, R38, R44). -/
structure State.HandsOver (s : State) (m : Matched) (a : Arrival) : Prop where
  released : s.resetHold.held = false
  held : s.classifier.held = some m
  fits : (s.feed m.feed).profile.seqOffset + (s.feed m.feed).profile.seqWidth ≤ m.descriptor.window.length
  arrival : a = arrivalOf (s.feed m.feed).profile m
    (BitVec.ofNat 32 (orderedNat (s.feed m.feed).profile.seqOrder
      ((m.descriptor.window.drop (s.feed m.feed).profile.seqOffset).take (s.feed m.feed).profile.seqWidth)))

/-- None of the checks 1 to 4 decides a number (R65, R81): no held record and no candidate has it, no range holds it, and it lies neither at nor 1 to 16
ahead of the candidate. -/
structure Feed.Unseen (f : Feed) (n : SeqNum) : Prop where
  candidate : ∀ c, f.candidate = some c → Config.confirmWindow < (n - c.number).toNat
  hold : ∀ h ∈ f.hold, h.number ≠ n
  gaps : ∀ g ∈ f.gaps, g.holds n = false

/-- A feed after the leg update and the count of a copy on a leg (R55, R58, R63). -/
def Feed.heard (f : Feed) (leg : Leg) (now : LocalCount) : Feed :=
  { f.setLeg leg { state := .active, deadline := some (after now (f.profile.silence * 1000000)) } with
    counters := countCopy leg f.counters }

/-- The state with the descriptor taken, the classifier free, the copy counted and its leg ACTIVE, before the arbitration; a leg that was not ACTIVE is
reported (R37, R55, R57, R63). -/
def State.heard (m : Matched) (a : Arrival) (s : State) : State :=
  let f := s.feed m.feed
  let t := { s with
    classifier := { s.classifier with held := none }
    feeds := s.feeds.set m.feed.val (f.heard a.copy.leg s.now) m.feed.isLt }
  if (f.leg a.copy.leg).state = .active then t
  else
    (t.offer { stamp := a.copy.stamp, body := .leg m.feed a.copy.leg (f.leg a.copy.leg).state .active }).raise .leg
      (.feeds (feedBit m.feed))

/-- Records offered in order (R160). -/
def State.offerAll (rs : List Record) (s : State) : State := rs.foldl (fun t r => t.offer r) s

/-- The ARRIVAL records of a list of records released: PAIRED with a twin, and the cause's own status without (R89, R90). -/
def releaseRecords (i : FeedId) (format : SendFormat) (status : TwinStatus) (hs : List HeldRecord) : List Record :=
  hs.map fun h => arrivalRecord i format (if h.twin.isSome then .paired else status) h

/-- The GAP records of a list of ranges declared now (R111). -/
def gapRecords (i : FeedId) (cause : GapCause) (now : Stamp) (gs : List GapRange) : List Record :=
  gs.map fun g => { stamp := now, body := .gap i cause g.first g.last g.opened }

/-- The counters of a feed after a list of releases (R102). -/
def FeedCounters.released (hs : List HeldRecord) (c : FeedCounters) : FeedCounters :=
  { c with
    wonA := c.wonA + BitVec.ofNat 32 (hs.filter fun h => h.first.leg == .a).length
    wonB := c.wonB + BitVec.ofNat 32 (hs.filter fun h => h.first.leg == .b).length }

/-- The counters of a feed after a list of declarations (R111). -/
def FeedCounters.declared (gs : List GapRange) (c : FeedCounters) : FeedCounters :=
  { c with numbersLost := c.numbersLost + (gs.map fun g => rangeCount g.first g.last).sum }

/-- The records that go, and those that stay, when a hold list is chained from its head (R100): those that go have a twin or have reached their
deadline, and the first that stays has neither. -/
structure ChainsTo (now : LocalCount) (hold out rest : List HeldRecord) : Prop where
  split : hold = out ++ rest
  goes : ∀ h ∈ out, h.twin.isSome = true ∨ reached h.deadline now = true
  stays : ∀ h, rest.head? = some h → h.twin = none ∧ reached h.deadline now = false

end Sys2Proof.Machine
end

