-- ==== Sys2Proof/WellFormed.lean ====
section
/-! DEFINITION. Which commands the block's surroundings can form at all: operands that no frame on the link can carry are ill-formed.
exec has an effect for an ill-formed command too (log 25); this file only tells them apart. -/

namespace Sys2Proof

/-- The bytes spell one frame from its start byte to its end as the framer ends it: at the second length byte when the length is above
1,024, at the second CRC byte otherwise (R178). -/
def spellsOneFrame : List Byte → Bool
  | b :: _ :: _ :: lo :: hi :: rest =>
    b == startByte &&
      (if leNat [lo, hi] > Config.maxPayload then rest.isEmpty
       else rest.length == leNat [lo, hi] + 2)
  | _ => false

/-- A frame of the link can carry the payload (R177). -/
def payloadFits (payload : List Byte) : Bool := decide (payload.length ≤ Config.maxPayload)

/-- The command's operands can occur. -/
def Instr.WellFormed (i : Instr) : Bool :=
  match i with
  | .inboundFrameDiscard bytes => spellsOneFrame bytes
  | .unknownKind kind _ payload => payloadFits payload && (requestLength kind).isNone
  | _ =>
    match i.toFrame with
    | some (_, _, payload) => payloadFits payload
    | none => true

end Sys2Proof
end

