-- ==== Sys2Proof/Certificates/Slice0/Obligations.lean ====
section
/-! DEFINITION. The statements for the provers. -/

open Sys2Proof Sys2Proof.Machine

/-! ## The machine -/

/-- With a command at the front of the queue, a step is that command on the state with the queue's rest. -/
def Obligations.StepRunsFrontCommand : Prop :=
  ∀ (c : Instr) (s : State), step { s with pending := c :: s.pending } = exec c s

/-- The model's tick (log 3): with no command waiting and no request in EXECUTING, a released part's local count advances by one and its time value by 1 + r × 10^-9 ns, a slew in
flight adding no more than what remains of it (R115, R117, R127); nothing else changes. -/
def Obligations.EmptyQueueStepIsOneTick : Prop :=
  ∀ s : State, s.pending = [] → s.resetHold.held = false → (∀ r, s.link.engine ≠ .executing r) →
    ∃ t, step s = .next t ∧ t = { s with time := t.time } ∧ t.time.localCount = s.time.localCount + 1 ∧ t.time.epoch = s.time.epoch ∧
      t.time.state = s.time.state ∧ t.time.f = s.time.f ∧ t.time.p = s.time.p ∧
      (s.time.slew = none → t.time.slew = none ∧
        t.time.units = (s.time.units + 16000000000 + s.time.rateOffset) % (timeModulus * Config.unitsPerQuarter : Nat)) ∧
      (∀ sl, s.time.slew = some sl → 0 < sl.requested → ∃ a, a = min (sl.applied + 16 * sl.rate) sl.goal ∧
        t.time.slew = some { sl with applied := a } ∧
        t.time.units = (s.time.units + 16000000000 + s.time.rateOffset - (sl.applied + 16 * sl.rate - a)) %
          (timeModulus * Config.unitsPerQuarter : Nat)) ∧
      (∀ sl, s.time.slew = some sl → sl.requested < 0 → ∃ a, a = max (sl.applied - 16 * sl.rate) sl.goal ∧
        t.time.slew = some { sl with applied := a } ∧
        t.time.units = (s.time.units + 16000000000 + s.time.rateOffset - (sl.applied - 16 * sl.rate - a)) %
          (timeModulus * Config.unitsPerQuarter : Nat))

/-- No command stops the block, and none touches the queue of waiting commands. -/
def Obligations.EveryCommandAnswersNext : Prop :=
  ∀ (c : Instr) (s : State), ∃ t, exec c s = .next t ∧ t.pending = s.pending

/-! ## Resets -/

/-- What the block holds at State.reset, as the reset rules of the chapters give it (R29, R46, R61, R92, R136, R158, R176, R194). The reset cause is
the model's choice (log 1), and so are the levels of the inputs (log 2); the note of a first append, absent, is the model's own field (log 26). -/
def Obligations.ResetState : Prop :=
  (∀ i : LineId, (State.reset.line i).state = .disabled ∧ (State.reset.line i).badRun = 0 ∧ (State.reset.line i).quiet = none ∧
    (State.reset.line i).frame = none ∧ (State.reset.line i).fifo = [] ∧ (State.reset.line i).config = .reset ∧
    (State.reset.line i).counters = .reset ∧ (State.reset.line i).signal = State.reset.pins.sd[i]) ∧
  State.reset.classifier.held = none ∧ State.reset.classifier.lastServed = 7 ∧ State.reset.classifier.firstIn = none ∧
  (∀ k : Fin 32, State.reset.classifier.selectors[k] = .reset) ∧
  (∀ i : LineId, State.reset.classifier.unclaimed[i] = 0 ∧ State.reset.classifier.short[i] = 0) ∧
  (∀ i : FeedId, State.reset.feed i = .reset) ∧ State.reset.freeCount = 1024 ∧
  State.reset.time = .reset ∧ State.reset.monitors = { a := .reset, b := .reset } ∧ State.reset.discipline = .reset ∧
  State.reset.queue = .reset ∧
  (∀ id, State.reset.notices.get id = { enabled := true, pending := false, occurrences := 0, summary := .empty }) ∧
  State.reset.link.engine = .idle ∧ State.reset.link.queued = [] ∧ State.reset.link.owed = 0 ∧ State.reset.link.linkErrors = 0 ∧
  State.reset.link.outFrame = none ∧ State.reset.link.startOwed = some .powerOn ∧ State.reset.link.framer = .ignoring ∧
  State.reset.link.up = State.reset.pins.linkSd ∧ State.reset.pending = []

/-- A power-on, a line reset and a supply dip each put the whole part at its reset values and hold it, adding their cause to those that arose; the release
reports the first of POWER_ON, SUPPLY_DIP and RESET_LINE among them (R192). While it is held, no other command but a change of an input has any effect (log 15, the
model's reading of R192). What the blocks hold meanwhile is the model's choice (log 14). -/
def Obligations.WholePartResetsHoldAndRelease : Prop :=
  (∀ s : State,
     (∃ c, exec .powerOn s = .next (State.fresh s.pins { s.resetHold with held := true, powerOn := true } c s.pending)) ∧
     (∃ c, exec .lineReset s = .next (State.fresh s.pins { s.resetHold with held := true, lineReset := true } c s.pending)) ∧
     (∃ c, exec .supplyDip s = .next (State.fresh s.pins { s.resetHold with held := true, supplyDip := true } c s.pending)) ∧
     (s.resetHold.held = true → ∃ t, exec .resetRelease s = .next t ∧ ∃ c, t = State.fresh s.pins .released c s.pending ∧
       t.link.startOwed = some c ∧ t.now = 0 ∧
       (s.resetHold.powerOn = true → c = .powerOn) ∧
       (s.resetHold.powerOn = false → s.resetHold.supplyDip = true → c = .supplyDip) ∧
       (s.resetHold.powerOn = false → s.resetHold.supplyDip = false → c = .resetLine)) ∧
     (s.resetHold.held = false → exec .resetRelease s = .next s)) ∧
  (∀ (c : Instr) (s : State), s.resetHold.held = true →
     (∀ i v, c ≠ .lineSignalChange i v) → c ≠ .linkDown → c ≠ .linkUp → c ≠ .powerOn → c ≠ .lineReset → c ≠ .supplyDip → c ≠ .resetRelease →
     exec c s = .next s)

/-- A restart that is due resets the line ports, the classifier, the feeds, the queue, the notice table and the link interface, owes a START with cause
RESTART_REQUEST, and leaves the time base, the monitors and the discipline unit as they were (R137, R191, R194). -/
def Obligations.RestartResetsAllButTime : Prop :=
  ∀ s : State, s.resetHold.held = false → s.link.restartDue = true →
    ∃ t, exec .restartExecute s = .next t ∧ t.time = s.time ∧ t.monitors = s.monitors ∧ t.discipline = s.discipline ∧ t.pins = s.pins ∧
      t.pending = s.pending ∧ (∀ i, t.line i = .reset s.pins.sd[i]) ∧ t.classifier = .reset ∧ (∀ i, t.feed i = .reset) ∧
      t.queue = .reset ∧ t.notices = .reset ∧ t.link = .reset s.pins .restartRequest ∧ t.link.startOwed = some .restartRequest

/-! ## Line ports -/

/-- A change of a line's signal-detect input (R10, R13, R14, R25): in INTEGRATING and ACTIVE a loss takes the line to DOWN; in DOWN an appearance takes it to
INTEGRATING; in DISABLED only the level changes. The quiet timer of an INTEGRATING line whose deadline is reached takes it to ACTIVE (R15). -/
def Obligations.LineFollowsItsSignalAndTimer : Prop :=
  (∀ (s : State) (i : LineId), s.resetHold.held = false →
     ((s.line i).state = .disabled → ∀ v, exec (.lineSignalChange i v) s =
       .next { s with pins := { s.pins with sd := s.pins.sd.set i.val v i.isLt },
                      lines := s.lines.set i.val { s.line i with signal := v } i.isLt }) ∧
     ((s.line i).state = .down → exec (.lineSignalChange i true) s =
       .next (({ s with pins := { s.pins with sd := s.pins.sd.set i.val true i.isLt },
                        lines := s.lines.set i.val { s.line i with
                          state := .integrating, signal := true, badRun := 0, quiet := some (after s.now ((s.line i).config.integration * 100)) }
                          i.isLt }).offerNow
               (.line i .down .integrating .signalBack) |>.raise .line (.lines (lineBit i)))) ∧
     (∀ old, (s.line i).state = old → old = .integrating ∨ old = .active → exec (.lineSignalChange i false) s =
       .next (({ s with pins := { s.pins with sd := s.pins.sd.set i.val false i.isLt },
                        lines := s.lines.set i.val { s.line i with
                          state := .down, signal := false, badRun := 0, quiet := none, frame := none,
                          counters := { (s.line i).counters with
                            aborted := (s.line i).counters.aborted + if (s.line i).frame.isSome then 1 else 0 } } i.isLt }).offerNow
               (.line i old .down .signalLost) |>.raise .line (.lines (lineBit i))))) ∧
  (∀ (s : State) (i : LineId) (d : LocalCount), s.resetHold.held = false → (s.line i).state = .integrating → (s.line i).quiet = some d →
     reached d s.now = true →
     exec (.quietTimerExpiry i) s =
       .next ((s.setLine i { s.line i with state := .active, quiet := none }).offerNow (.line i .integrating .active .integrated)
               |>.raise .line (.lines (lineBit i))))

/-- A start of frame (R15 to R18, R24): ignored in DISABLED and DOWN; an integration discard in INTEGRATING; in ACTIVE counted and stamped with the reading
less the deskew, an earlier frame in progress being counted as aborted. -/
def Obligations.StartOfFrame : Prop :=
  ∀ (s : State) (i : LineId), s.resetHold.held = false →
    ((s.line i).state = .disabled ∨ (s.line i).state = .down → exec (.startOfFrame i) s = .next s) ∧
    ((s.line i).state = .integrating → exec (.startOfFrame i) s =
      .next { s with lines := s.lines.set i.val { s.line i with
        quiet := some (after s.now ((s.line i).config.integration * 100)),
        counters := { (s.line i).counters with
          started := (s.line i).counters.started + 1, discards := (s.line i).counters.discards + 1 } } i.isLt }) ∧
    ((s.line i).state = .active → exec (.startOfFrame i) s =
      .next { s with lines := s.lines.set i.val { s.line i with
        frame := some { value := s.time.value.add (-(s.line i).config.deskew), epoch := s.time.epoch, state := s.time.state },
        counters := { (s.line i).counters with
          started := (s.line i).counters.started + 1,
          aborted := (s.line i).counters.aborted + if (s.line i).frame.isSome then 1 else 0 } } i.isLt })

/-- The end of a frame in progress is judged bad check, runt, giant, accepted or overrun, the first that applies (R19, R20, R22, R23); the bad-check frame that
brings the bad-run count to a limit that is not 0 takes the line from ACTIVE to INTEGRATING (R21, R25). An end with no frame in progress is ignored, but restarts
the quiet timer in INTEGRATING (R15, R17). The line of an accepted frame is noted as the one to be granted next when the arbiter waits, the classifier being free
and every FIFO empty, and at no other time (R31; that the note is a field is the model's choice, log 26). -/
def Obligations.EndOfFrameJudged : Prop :=
  (∀ (s : State) (i : LineId) (bytes : List Byte), s.resetHold.held = false →
     ((s.line i).frame = none → (s.line i).state ≠ .integrating → ∀ good, exec (.endOfFrame i good bytes) s = .next s) ∧
     ((s.line i).frame = none → (s.line i).state = .integrating → ∀ good, exec (.endOfFrame i good bytes) s =
       .next (s.setLine i { s.line i with quiet := some (after s.now ((s.line i).config.integration * 100)) })) ∧
     (∀ stamp, (s.line i).frame = some stamp →
       ((s.line i).badRun.toNat < 255 → ((s.line i).config.badRunLimit = 0 ∨ (s.line i).badRun.toNat + 1 ≠ (s.line i).config.badRunLimit) →
         exec (.endOfFrame i false bytes) s = .next (s.setLine i { s.line i with
           frame := none, badRun := (s.line i).badRun + 1,
           counters := { (s.line i).counters with badCheck := (s.line i).counters.badCheck + 1 } })) ∧
       (bytes.length < (s.line i).config.minLength →
         exec (.endOfFrame i true bytes) s = .next (s.setLine i { s.line i with
           frame := none, counters := { (s.line i).counters with runts := (s.line i).counters.runts + 1 } })) ∧
       ((s.line i).config.minLength ≤ bytes.length → (s.line i).config.maxLength < bytes.length →
         exec (.endOfFrame i true bytes) s = .next (s.setLine i { s.line i with
           frame := none, counters := { (s.line i).counters with giants := (s.line i).counters.giants + 1 } })) ∧
       ((s.line i).config.minLength ≤ bytes.length → bytes.length ≤ (s.line i).config.maxLength → (s.line i).fifo.length < 16 →
         ∃ first, exec (.endOfFrame i true bytes) s =
           .next (({ s with classifier := { s.classifier with firstIn := first } } : State).setLine i { s.line i with
             frame := none, badRun := 0,
             fifo := (s.line i).fifo ++ [{ line := i, stamp := stamp, frameLength := bytes.length, window := bytes.take 256 }],
             counters := { (s.line i).counters with accepted := (s.line i).counters.accepted + 1 } }) ∧
           (s.classifier.held = none → (∀ j, (s.line j).fifo = []) → first = some i) ∧
           (s.classifier.held ≠ none ∨ (∃ j, (s.line j).fifo ≠ []) → first = s.classifier.firstIn)) ∧
       ((s.line i).config.minLength ≤ bytes.length → bytes.length ≤ (s.line i).config.maxLength → 16 ≤ (s.line i).fifo.length →
         exec (.endOfFrame i true bytes) s = .next (s.setLine i { s.line i with
           frame := none, badRun := 0, counters := { (s.line i).counters with overruns := (s.line i).counters.overruns + 1 } })))) ∧
  (∀ (s : State) (i : LineId) (stamp : Stamp) (bytes : List Byte), s.resetHold.held = false → (s.line i).state = .active →
     (s.line i).frame = some stamp → (s.line i).config.badRunLimit ≠ 0 → (s.line i).badRun.toNat < 255 →
     (s.line i).badRun.toNat + 1 = (s.line i).config.badRunLimit →
     exec (.endOfFrame i false bytes) s =
       .next ((s.setLine i { s.line i with
                 state := .integrating, frame := none, badRun := 0, quiet := some (after s.now ((s.line i).config.integration * 100)),
                 counters := { (s.line i).counters with badCheck := (s.line i).counters.badCheck + 1 } }).offerNow
               (.line i .active .integrating .badRun) |>.raise .line (.lines (lineBit i))))

/-- ENABLE LINE and DISABLE LINE (R11, R12, R25): the new state, the record and the raise before the result OK; a line already enabled, or already
disabled, is left as it is; a line number that names no line gives RANGE (R26). -/
def Obligations.LinesAreEnabledAndDisabled : Prop :=
  ∀ (s : State) (b tag : Byte),
  (∀ i : LineId, b.toNat = i.val →
    (s.Admits 0x01 [b] →
      ((s.line i).state = .disabled → (s.line i).signal = true → exec (.enableLine tag [b]) s =
        .next (((s.setLine i { s.line i with
                  state := .integrating, badRun := 0, quiet := some (after s.now ((s.line i).config.integration * 100)) }).offerNow
                (.line i .disabled .integrating .enabled) |>.raise .line (.lines (lineBit i))).replied 0x01 tag (.ok []))) ∧
      ((s.line i).state = .disabled → (s.line i).signal = false → exec (.enableLine tag [b]) s =
        .next (((s.setLine i { s.line i with state := .down, badRun := 0 }).offerNow (.line i .disabled .down .enabled)
                |>.raise .line (.lines (lineBit i))).replied 0x01 tag (.ok []))) ∧
      ((s.line i).state ≠ .disabled → exec (.enableLine tag [b]) s = .next (s.replied 0x01 tag (.ok [])))) ∧
    (s.Admits 0x02 [b] →
      ((s.line i).state = .disabled → exec (.disableLine tag [b]) s = .next (s.replied 0x02 tag (.ok []))) ∧
      (∀ old, (s.line i).state = old → old ≠ .disabled → exec (.disableLine tag [b]) s =
        .next (((s.setLine i { s.line i with
                  state := .disabled, badRun := 0, quiet := none, frame := none,
                  counters := { (s.line i).counters with
                    aborted := (s.line i).counters.aborted + if (s.line i).frame.isSome then 1 else 0 } }).offerNow
                (.line i old .disabled .disabled) |>.raise .line (.lines (lineBit i))).replied 0x02 tag (.ok []))))) ∧
  (8 ≤ b.toNat →
    (s.Admits 0x01 [b] → exec (.enableLine tag [b]) s = .next (s.replied 0x01 tag (.bare .range))) ∧
    (s.Admits 0x02 [b] → exec (.disableLine tag [b]) s = .next (s.replied 0x02 tag (.bare .range))))

/-- CONFIGURE LINE (R26, R198, R199): for a DISABLED line every configuration within the ranges is taken whole; a line in another state gives STATE;
a line number that names no line gives RANGE. -/
def Obligations.LineIsConfigured : Prop :=
  ∀ (s : State) (c : LineConfig) (b tag : Byte), c.InRange →
    s.Admits 0x03 (b :: c.bytes) →
    (∀ i : LineId, b.toNat = i.val → (s.line i).state = .disabled → exec (.configureLine tag (b :: c.bytes)) s =
      .next ((s.setLine i { s.line i with config := c }).replied 0x03 tag (.ok []))) ∧
    (∀ i : LineId, b.toNat = i.val → (s.line i).state ≠ .disabled → exec (.configureLine tag (b :: c.bytes)) s =
      .next (s.replied 0x03 tag (.bare .state))) ∧
    (8 ≤ b.toNat → exec (.configureLine tag (b :: c.bytes)) s = .next (s.replied 0x03 tag (.bare .range)))

/-! ## Classification and hand-over -/

/-- INGRESS_GRANT (R30, R31, R33, R34): the line served is the one whose descriptor was the first appended while the arbiter waited (that the grant
looks there before the cyclic order, in the field firstIn, is the model's choice, log 26, DEDUCED), and otherwise the first in cyclic order after the
last one served whose FIFO is not empty; its oldest descriptor is matched against the entries, the lowest-indexed match deciding, and is unclaimed
without one. With the classifier busy, or no descriptor waiting, nothing happens. -/
def Obligations.GrantServesNextLine : Prop :=
  ∀ s : State, s.resetHold.held = false →
    ((∃ m, s.classifier.held = some m) ∨ (∀ i, (s.line i).fifo = []) → exec .ingressGrant s = .next s) ∧
    (∀ (i : LineId) (d : Descriptor) (rest : List Descriptor), s.classifier.held = none → (s.line i).fifo = d :: rest →
      (s.classifier.firstIn = some i ∨ (∀ j, s.classifier.firstIn = some j → (s.line j).fifo = []) ∧
        ∀ j : LineId, (s.line j).fifo ≠ [] → (i - s.classifier.lastServed - 1).val ≤ (j - s.classifier.lastServed - 1).val) →
      ((∀ k : Fin 32, ¬ s.classifier.selectors[k].Matches d) → exec .ingressGrant s =
        .next { s with
          lines := s.lines.set i.val { s.line i with fifo := rest } i.isLt
          classifier := { s.classifier with
            held := none, lastServed := i, firstIn := none
            unclaimed := s.classifier.unclaimed.set d.line.val (s.classifier.unclaimed[d.line] + 1) d.line.isLt } }) ∧
      (∀ k : Fin 32, s.classifier.selectors[k].Matches d → (∀ k' < k, ¬ s.classifier.selectors[k'].Matches d) → exec .ingressGrant s =
        .next { s with
          lines := s.lines.set i.val { s.line i with fifo := rest } i.isLt
          classifier := { s.classifier with
            lastServed := i, firstIn := none
            held := some { descriptor := d, feed := s.classifier.selectors[k].feed, leg := s.classifier.selectors[k].leg,
                           mark := s.classifier.selectors[k].mark } } }))

/-- WRITE SELECTOR takes every entry within R35's ranges whole; CLEAR SELECTOR returns an entry to its reset values whatever it held; READ SELECTOR
carries every field of the entry. An index above 31 gives RANGE and changes nothing (R35, R36). -/
def Obligations.SelectorsWrittenClearedRead : Prop :=
  ∀ (s : State) (e : Selector) (b tag : Byte),
    (s.Admits 0x08 (b :: e.bytes) → e.InRange →
      (∀ k : Fin 32, b.toNat = k.val → exec (.writeSelector tag (b :: e.bytes)) s =
        .next ({ s with classifier := { s.classifier with selectors := s.classifier.selectors.set k.val e k.isLt } }.replied 0x08 tag (.ok []))) ∧
      (32 ≤ b.toNat → exec (.writeSelector tag (b :: e.bytes)) s = .next (s.replied 0x08 tag (.bare .range)))) ∧
    (s.Admits 0x09 [b] →
      (∀ k : Fin 32, b.toNat = k.val → exec (.clearSelector tag [b]) s =
        .next ({ s with classifier := { s.classifier with
          selectors := s.classifier.selectors.set k.val
            { valid := false, lineSet := 0, offset := 0, width := 1, mask := 0, value := 0, feed := 0, leg := .a, mark := false } k.isLt } }.replied
          0x09 tag (.ok []))) ∧
      (32 ≤ b.toNat → exec (.clearSelector tag [b]) s = .next (s.replied 0x09 tag (.bare .range)))) ∧
    (s.Admits 0x0A [b] →
      (∀ k : Fin 32, b.toNat = k.val → exec (.readSelector tag [b]) s =
        .next (s.replied 0x0A tag (.ok (b :: s.classifier.selectors[k].bytes)))) ∧
      (32 ≤ b.toNat → exec (.readSelector tag [b]) s = .next (s.replied 0x0A tag (.bare .range))))

/-- QUERY LINE, QUERY FEED, READ TIME and STATUS queue their result and change nothing else (R27, R54, R132, R190); the results' fields have the lengths
of R201. -/
def Obligations.QueriesOnlyAnswer : Prop :=
  ∀ (s : State) (b tag : Byte),
    (s.Admits 0x04 [b] →
      (∀ i : LineId, b.toNat = i.val → exec (.queryLine tag [b]) s = .next (s.replied 0x04 tag (.ok (s.lineFields i))) ∧
        (s.lineFields i).length = 56) ∧
      (8 ≤ b.toNat → exec (.queryLine tag [b]) s = .next (s.replied 0x04 tag (.bare .range)))) ∧
    (s.Admits 0x13 [b] →
      (∀ i : FeedId, b.toNat = i.val → exec (.queryFeed tag [b]) s = .next (s.replied 0x13 tag (.ok (s.feedFields i))) ∧
        (s.feedFields i).length = 154 + 32 * (s.feed i).gaps.length) ∧
      (16 ≤ b.toNat → exec (.queryFeed tag [b]) s = .next (s.replied 0x13 tag (.bare .range)))) ∧
    (s.Admits 0x1C [] → exec (.readTime tag []) s = .next (s.replied 0x1C tag (.ok s.timeFields)) ∧ s.timeFields.length = 66) ∧
    (s.Admits 0x31 [] → exec (.status tag []) s = .next (s.replied 0x31 tag (.ok s.arrived.statusFields)) ∧
      s.arrived.statusFields.length = 64)

/-- HAND_OVER without an arrival: a descriptor of a CLOSED feed is counted on the feed, one whose window does not hold the sequence number as short on its
line; the classifier is then free and nothing else changes (R37, R38). -/
def Obligations.HandOverWithoutArrival : Prop :=
  ∀ s : State, s.resetHold.held = false →
    (s.classifier.held = none → exec .handOver s = .next s) ∧
    (∀ m, s.classifier.held = some m →
      ((s.feed m.feed).state = .closed → exec .handOver s =
        .next { s with
          classifier := { s.classifier with held := none }
          feeds := s.feeds.set m.feed.val { s.feed m.feed with
            counters := { (s.feed m.feed).counters with whileClosed := (s.feed m.feed).counters.whileClosed + 1 } } m.feed.isLt }) ∧
      ((s.feed m.feed).state ≠ .closed →
        m.descriptor.window.length < (s.feed m.feed).profile.seqOffset + (s.feed m.feed).profile.seqWidth → exec .handOver s =
        .next { s with
          classifier := { s.classifier with
            held := none
            short := s.classifier.short.set m.descriptor.line.val (s.classifier.short[m.descriptor.line] + 1) m.descriptor.line.isLt } }))

/-- The latency of a copy (R42, R43): in SCALE_NS the difference of the nanoseconds since the origin, carried within ±2^47 ns; in DAY_NS and DAY_DEC the
difference of the times of day, folded above −43,200 s and up to +43,200 s. -/
def Obligations.LatencyIsTheDifference : Prop :=
  ∀ (stamp : Stamp) (sent : Nat),
    (let d : Int := (stamp.value.seconds.toNat : Int) * 1000000000 + stamp.value.nanos.val - sent
     latencyOf .scaleNs stamp sent = if -(2 ^ 47) ≤ d ∧ d ≤ 2 ^ 47 then some d else none) ∧
    (sent < 86400000000000 → ∀ f, f = SendFormat.dayNs ∨ f = SendFormat.dayDec → ∃ l : Int, latencyOf f stamp sent = some l ∧
      -43200000000000 < l ∧ l ≤ 43200000000000 ∧
      (let d : Int := ((stamp.value.seconds.toNat % 86400 : Nat) : Int) * 1000000000 + stamp.value.nanos.val - sent
       l = d ∨ l = d - 86400000000000 ∨ l = d + 86400000000000))

/-! ## Arrivals -/

/-- A record created (R67, R94): first copies increments, and the record joins the tail of its feed's hold list; with no free entry in the pool it is
released at once as NOT_HELD instead. -/
def Obligations.CreatedRecordIsHeldOrBypasses : Prop :=
  ∀ (s : State) (i : FeedId) (a : Arrival) (late : Bool) (h : HeldRecord),
    h = { number := a.number, first := a.copy, twin := none,
          flags := { lateFill := late, repeatSeen := false, mark := a.copy.mark, restartBase := false },
          deadline := after s.now ((s.feed i).profile.pairing * 1000) } →
    (0 < s.freeCount → s.create i a late = s.onFeed i fun f => { f with
      hold := f.hold ++ [h], counters := { f.counters with firstCopies := f.counters.firstCopies + 1 } }) ∧
    (s.freeCount = 0 → s.create i a late = (s.offer (arrivalRecord i (s.feed i).profile.sendFormat .notHeld h)).onFeed i fun f => { f with
      counters := .released [h] { f.counters with firstCopies := f.counters.firstCopies + 1, notHeld := f.counters.notHeld + 1 } })

/-- The first arrival of an ARMED feed, whatever its number, becomes the feed's first record, and E its number plus 1 (R64). -/
def Obligations.FirstArrivalStartsFeed : Prop :=
  ∀ (s : State) (m : Matched) (a : Arrival), s.HandsOver m a → (s.feed m.feed).state = .armed → (s.feed m.feed).hold = [] →
    (s.feed m.feed).gaps = [] →
    exec .handOver s = .next (((s.heard m a).create m.feed a false).onFeed m.feed fun f => { f with state := .running (a.number + 1) })

/-- An arrival whose number is E is in order: its record is created, E advances by 1, and the aging follows (R76). A copy that no check finds, behind E by 1 to L,
is a late copy: it is counted, and dropped (R78). -/
def Obligations.InOrderAndLateArrivals : Prop :=
  (∀ (s : State) (m : Matched) (a : Arrival), s.HandsOver m a → (s.feed m.feed).state = .running a.number →
     (s.feed m.feed).Unseen a.number →
     exec .handOver s =
       .next ((((s.heard m a).create m.feed a false).onFeed m.feed fun f => { f with state := .running (a.number + 1) }).age m.feed (a.number + 1))) ∧
  (∀ (s : State) (m : Matched) (a : Arrival) (e : SeqNum), s.HandsOver m a → (s.feed m.feed).state = .running e →
     (s.feed m.feed).Unseen a.number → 2 ^ 31 ≤ (a.number - e).toNat →
     2 ^ 32 - (a.number - e).toNat ≤ (s.feed m.feed).profile.jumpLimit →
     exec .handOver s = .next ((s.heard m a).onFeed m.feed fun f =>
       { f with counters := { f.counters with lateCopies := f.counters.lateCopies + 1 } }))

/-- An arrival ahead of E by 1 to L opens a range from E to the number before its own, the oldest of four ranges being declared LIST_FULL first; its
record is created, E moves past it, and the aging follows (R77, R105, R111). -/
def Obligations.AheadArrivalOpensGap : Prop :=
  ∀ (s : State) (m : Matched) (a : Arrival) (e : SeqNum) (g : GapRange), s.HandsOver m a → (s.feed m.feed).state = .running e →
    (s.feed m.feed).Unseen a.number → 1 ≤ (a.number - e).toNat → (a.number - e).toNat < 2 ^ 31 →
    (a.number - e).toNat ≤ (s.feed m.feed).profile.jumpLimit →
    g = { first := e, last := a.number - 1, opened := a.copy.stamp, deadline := after s.now ((s.feed m.feed).profile.gap * 1000) } →
    ((s.feed m.feed).gaps.length < 4 → exec .handOver s =
      .next (((((s.heard m a).onFeed m.feed fun f => { f with
          gaps := f.gaps ++ [g], counters := { f.counters with gapsOpened := f.counters.gapsOpened + 1 } }).create m.feed a false).onFeed m.feed
            fun f => { f with state := .running (a.number + 1) }).age m.feed (a.number + 1))) ∧
    (∀ oldest rest, (s.feed m.feed).gaps = oldest :: rest → 4 ≤ (s.feed m.feed).gaps.length → exec .handOver s =
      .next ((((((s.heard m a).offerAll (gapRecords m.feed .listFull s.reading [oldest])).onFeed m.feed fun f => { f with
          gaps := rest ++ [g],
          counters := .declared [oldest] { f.counters with gapsOpened := f.counters.gapsOpened + 1 } }).create m.feed a false).onFeed m.feed
            fun f => { f with state := .running (a.number + 1) }).age m.feed (a.number + 1)))

/-- The aging after a change of E (R86 to R88, R100): the ranges whose first number lies 2^30 or more behind E are declared AGED; then the hold list is
released up to its last record that far behind, and chained on; then a candidate no longer beyond L from E is a stray. -/
def Obligations.AgingReleasesWhatLiesFarBehind : Prop :=
  ∀ (s : State) (i : FeedId) (e : SeqNum) (aged kept chained rest : List HeldRecord),
    (s.feed i).hold = aged ++ kept → (∀ h ∈ kept, isAged e h.number = false) → (∀ h, aged.getLast? = some h → isAged e h.number = true) →
    (if aged = [] then chained = [] ∧ rest = kept else ChainsTo s.now kept chained rest) →
    ∃ t, s.age i e = t ∧
      t = (s.offerAll (gapRecords i .aged s.reading ((s.feed i).gaps.filter fun g => isAged e g.first) ++
            releaseRecords i (s.feed i).profile.sendFormat .aged aged ++
            releaseRecords i (s.feed i).profile.sendFormat .timeout chained)).onFeed i fun f => { f with
        gaps := f.gaps.filter fun g => !isAged e g.first
        hold := rest
        candidate := f.candidate.filter fun c => beyond f.profile.jumpLimit e c.number
        counters := .declared (f.gaps.filter fun g => isAged e g.first) (.released (aged ++ chained) { f.counters with
          strays := f.counters.strays + if (f.candidate.any fun c => !beyond f.profile.jumpLimit e c.number) then 1 else 0 }) }

/-- A copy of a held number (R68, R69, R71, R73, R98, R100): on the other leg of a record without a twin it is the twin, the first of the two copies being
reported as first; a twin of the head releases it, and the chain follows. Any other copy is a repeat. Of two copies of one epoch the one with the earlier time
value is first, and that on leg A when they are equal; otherwise the one with the earlier epoch, and that on leg A when neither is (R70). That the earlier of two
time values is the smaller plain number of quarter-nanoseconds is the model's choice (log 10): R70 leaves the wrap of the seconds open. -/
def Obligations.CopyOfHeldNumber : Prop :=
  (∀ (s : State) (m : Matched) (a : Arrival) (e : SeqNum) (before behind : List HeldRecord) (h h' : HeldRecord),
     s.HandsOver m a → (s.feed m.feed).state = .running e → (∀ c, (s.feed m.feed).candidate = some c → c.number ≠ a.number) →
     (s.feed m.feed).hold = before ++ h :: behind → h.number = a.number → (∀ x ∈ before, x.number ≠ a.number) →
     (h.twin = none → h.first.leg ≠ a.copy.leg →
       h' = (if arrivesFirst h.first a.copy then
               { h with first := a.copy, twin := some { line := h.first.line, stamp := h.first.stamp },
                        flags := { h.flags with mark := h.flags.mark || a.copy.mark } }
             else
               { h with twin := some { line := a.copy.line, stamp := a.copy.stamp },
                        flags := { h.flags with mark := h.flags.mark || a.copy.mark } }) →
       (before ≠ [] → exec .handOver s = .next ((s.heard m a).onFeed m.feed fun f =>
         { f with hold := before ++ h' :: behind, counters := { f.counters with twins := f.counters.twins + 1 } })) ∧
       (∀ out rest, before = [] → ChainsTo s.now behind out rest → exec .handOver s =
         .next (((s.heard m a).offerAll (releaseRecords m.feed (s.feed m.feed).profile.sendFormat .timeout (h' :: out))).onFeed m.feed fun f =>
           { f with hold := rest, counters := .released (h' :: out) { f.counters with twins := f.counters.twins + 1 } }))) ∧
     ((h.twin ≠ none ∨ h.first.leg = a.copy.leg) →
       h' = { h with flags := { h.flags with repeatSeen := true, mark := h.flags.mark || a.copy.mark } } →
       exec .handOver s = .next ((s.heard m a).onFeed m.feed fun f =>
         { f with hold := before ++ h' :: behind, counters := { f.counters with repeats := f.counters.repeats + 1 } }))) ∧
  (∀ held arriving : FrameCopy, held.leg ≠ arriving.leg →
     (held.stamp.epoch = arriving.stamp.epoch → held.stamp.value.toQuarters < arriving.stamp.value.toQuarters → arrivesFirst held arriving = false) ∧
     (held.stamp.epoch = arriving.stamp.epoch → arriving.stamp.value.toQuarters < held.stamp.value.toQuarters → arrivesFirst held arriving = true) ∧
     (held.stamp.epoch = arriving.stamp.epoch → arriving.stamp.value.toQuarters = held.stamp.value.toQuarters →
       (arrivesFirst held arriving = true ↔ arriving.leg = .a)) ∧
     (1 ≤ (arriving.stamp.epoch - held.stamp.epoch).toNat → (arriving.stamp.epoch - held.stamp.epoch).toNat < 2 ^ 15 →
       arrivesFirst held arriving = false) ∧
     (2 ^ 15 < (arriving.stamp.epoch - held.stamp.epoch).toNat → arrivesFirst held arriving = true) ∧
     ((arriving.stamp.epoch - held.stamp.epoch).toNat = 2 ^ 15 → (arrivesFirst held arriving = true ↔ arriving.leg = .a)))

/-- A late fill (R74, R106 to R108): the number leaves the range that holds it, which closes, shrinks at its end, or splits, the oldest range being declared
LIST_FULL when there is no place for a split; then a LATE_FILL record is created. -/
def Obligations.LateFillTakesItsNumber : Prop :=
  ∀ (s : State) (m : Matched) (a : Arrival) (e : SeqNum) (before behind : List GapRange) (g : GapRange),
    s.HandsOver m a → (s.feed m.feed).state = .running e → (∀ c, (s.feed m.feed).candidate = some c → c.number ≠ a.number) →
    (∀ h ∈ (s.feed m.feed).hold, h.number ≠ a.number) → (s.feed m.feed).gaps = before ++ g :: behind →
    (∀ x ∈ before, x.holds a.number = false) → (a.number - g.first).toNat ≤ (g.last - g.first).toNat →
    ∃ u, exec .handOver s =
        .next ((u.create m.feed a true).onFeed m.feed fun f => { f with counters := { f.counters with lateFills := f.counters.lateFills + 1 } }) ∧
      (a.number = g.first → a.number = g.last → u = (s.heard m a).onFeed m.feed fun f =>
        { f with gaps := before ++ behind, counters := { f.counters with gapsFilled := f.counters.gapsFilled + 1 } }) ∧
      (a.number = g.first → a.number ≠ g.last → u = (s.heard m a).onFeed m.feed fun f =>
        { f with gaps := before ++ { g with first := a.number + 1 } :: behind }) ∧
      (a.number ≠ g.first → a.number = g.last → u = (s.heard m a).onFeed m.feed fun f =>
        { f with gaps := before ++ { g with last := a.number - 1 } :: behind }) ∧
      (a.number ≠ g.first → a.number ≠ g.last → (s.feed m.feed).gaps.length < 4 → u = (s.heard m a).onFeed m.feed fun f =>
        { f with gaps := before ++ { g with last := a.number - 1 } :: { g with first := a.number + 1 } :: behind }) ∧
      (a.number ≠ g.first → a.number ≠ g.last → 4 ≤ (s.feed m.feed).gaps.length → before = [] →
        u = ((s.heard m a).offerAll (gapRecords m.feed .listFull s.reading [{ g with last := a.number - 1 }])).onFeed m.feed fun f =>
          { f with gaps := { g with first := a.number + 1 } :: behind,
                   counters := .declared [{ g with last := a.number - 1 }] f.counters }) ∧
      (∀ oldest others, a.number ≠ g.first → a.number ≠ g.last → 4 ≤ (s.feed m.feed).gaps.length → before = oldest :: others →
        u = ((s.heard m a).offerAll (gapRecords m.feed .listFull s.reading [oldest])).onFeed m.feed fun f =>
          { f with gaps := others ++ { g with last := a.number - 1 } :: { g with first := a.number + 1 } :: behind,
                   counters := .declared [oldest] f.counters })

/-- A copy beyond L from E becomes the restart candidate, an earlier candidate being discarded as a stray (R79). A copy of the candidate's own number is its
twin or a repeat (R68, R69). -/
def Obligations.CandidateIsTakenAndMet : Prop :=
  ∀ (s : State) (m : Matched) (a : Arrival) (e : SeqNum), s.HandsOver m a → (s.feed m.feed).state = .running e →
    ((s.feed m.feed).Unseen a.number → a.number ≠ e → beyond (s.feed m.feed).profile.jumpLimit e a.number = true →
      exec .handOver s = .next ((s.heard m a).onFeed m.feed fun f => { f with
        candidate := some (recordOf a false (after s.now ((s.feed m.feed).profile.pairing * 1000)))
        counters := { f.counters with strays := f.counters.strays + if f.candidate.isSome then 1 else 0 } })) ∧
    (∀ c, (s.feed m.feed).candidate = some c → c.number = a.number →
      (c.twin = none → c.first.leg ≠ a.copy.leg → exec .handOver s = .next ((s.heard m a).onFeed m.feed fun f => { f with
        candidate := some (c.attach a.copy), counters := { f.counters with twins := f.counters.twins + 1 } })) ∧
      ((c.twin ≠ none ∨ c.first.leg = a.copy.leg) → exec .handOver s = .next ((s.heard m a).onFeed m.feed fun f => { f with
        candidate := some { c with flags := { c.flags with repeatSeen := true, mark := c.flags.mark || a.copy.mark } }
        counters := { f.counters with repeats := f.counters.repeats + 1 } })))

/-- A copy 1 to 16 ahead of the candidate confirms a restart (R81 to R84): the hold list is released and the gap list declared with cause RESTART, a RESTART
record is offered, E becomes the candidate's number plus 1, the candidate becomes the feed's record, held, or released at once when it has a twin, is due or
finds no free entry; then the copy is placed against the new E. -/
def Obligations.RestartIsConfirmed : Prop :=
  ∀ (s : State) (m : Matched) (a : Arrival) (e : SeqNum) (c : HeldRecord) (u : State), s.HandsOver m a → (s.feed m.feed).state = .running e →
    (s.feed m.feed).candidate = some c → 1 ≤ (a.number - c.number).toNat → (a.number - c.number).toNat ≤ 16 →
    (∀ h ∈ (s.feed m.feed).hold, h.number ≠ a.number) → (∀ g ∈ (s.feed m.feed).gaps, g.holds a.number = false) →
    u = ((s.heard m a).offerAll (releaseRecords m.feed (s.feed m.feed).profile.sendFormat .restart (s.feed m.feed).hold ++
          gapRecords m.feed .restart s.reading (s.feed m.feed).gaps ++
          [{ stamp := a.copy.stamp, body := .restart m.feed e c.number c.first.stamp }])).onFeed m.feed (fun f => { f with
        state := .running (c.number + 1), hold := [], gaps := [], candidate := none
        counters := .declared f.gaps (.released f.hold { f.counters with
          restarts := f.counters.restarts + 1, firstCopies := f.counters.firstCopies + 1 }) }) →
    ∃ v, exec .handOver s = .next (v.place m.feed (c.number + 1) a) ∧
      (0 < u.freeCount → c.twin = none → reached c.deadline s.now = false →
        v = u.onFeed m.feed fun f => { f with hold := [{ c with flags := { c.flags with restartBase := true } }] }) ∧
      (c.twin ≠ none ∨ 0 < u.freeCount ∧ reached c.deadline s.now = true →
        v = (u.offerAll (releaseRecords m.feed (s.feed m.feed).profile.sendFormat .timeout
              [{ c with flags := { c.flags with restartBase := true } }])).onFeed m.feed fun f =>
          { f with counters := .released [c] f.counters }) ∧
      (u.freeCount = 0 → c.twin = none →
        v = (u.offerAll (releaseRecords m.feed (s.feed m.feed).profile.sendFormat .notHeld
              [{ c with flags := { c.flags with restartBase := true } }])).onFeed m.feed fun f =>
          { f with counters := .released [c] { f.counters with notHeld := f.counters.notHeld + 1 } })

/-! ## Timers of the feeds -/

/-- PAIRING_TIMER_EXPIRY (R97, R99, R100): when the head has no twin and its deadline is reached, it goes with TIMEOUT, and after it every next head that has a
twin, PAIRED, or is due, TIMEOUT. GAP_TIMER_EXPIRY (R104, R109, R111): the ranges from the oldest up to the first whose deadline is still ahead are declared with
cause TIMEOUT. -/
def Obligations.PairingAndGapTimersExpire : Prop :=
  (∀ (s : State) (i : FeedId), s.resetHold.held = false →
     ((s.feed i).hold = [] → exec (.pairingTimerExpiry i) s = .next s) ∧
     (∀ h t, (s.feed i).hold = h :: t → (h.twin ≠ none ∨ reached h.deadline s.now = false) → exec (.pairingTimerExpiry i) s = .next s) ∧
     (∀ h out rest, h.twin = none → reached h.deadline s.now = true → ChainsTo s.now (s.feed i).hold (h :: out) rest →
       exec (.pairingTimerExpiry i) s =
         .next ((s.offerAll (releaseRecords i (s.feed i).profile.sendFormat .timeout (h :: out))).onFeed i fun f =>
           { f with hold := rest, counters := .released (h :: out) f.counters }))) ∧
  (∀ (s : State) (i : FeedId) (out rest : List GapRange), s.resetHold.held = false → (s.feed i).gaps = out ++ rest →
     (∀ g ∈ out, reached g.deadline s.now = true) → (∀ g, rest.head? = some g → reached g.deadline s.now = false) →
     exec (.gapTimerExpiry i) s = .next ((s.offerAll (gapRecords i .timeout s.reading out)).onFeed i fun f =>
       { f with gaps := rest, counters := .declared out f.counters }))

/-- CANDIDATE_EXPIRY: a candidate whose deadline is reached leaves the slot as a stray, and no record is offered (R80). SILENCE_DEADLINE_EXPIRY: a WAITING or ACTIVE
leg whose deadline is reached enters SILENT, its timer stops, one LEG record is offered and the LEG source is raised with the feed; the lists and the candidate are
as they were (R56, R57). -/
def Obligations.CandidatesAndLegsExpire : Prop :=
  (∀ (s : State) (i : FeedId), s.resetHold.held = false →
     (∀ c, (s.feed i).candidate = some c → reached c.deadline s.now = true → exec (.candidateExpiry i) s =
       .next (s.setFeed i { s.feed i with
         candidate := none, counters := { (s.feed i).counters with strays := (s.feed i).counters.strays + 1 } })) ∧
     ((∀ c, (s.feed i).candidate = some c → reached c.deadline s.now = false) → exec (.candidateExpiry i) s = .next s)) ∧
  (∀ (s : State) (i : FeedId) (leg : Leg) (old : LegState) (d : LocalCount), s.resetHold.held = false →
     (s.feed i).leg leg = { state := old, deadline := some d } → old = .waiting ∨ old = .active →
     (reached d s.now = true → exec (.silenceDeadlineExpiry i leg) s =
       .next (((s.setFeed i ((s.feed i).setLeg leg { state := .silent, deadline := none })).offerNow (.leg i leg old .silent)).raise .leg
         (.feeds (BitVec.ofNat 16 (2 ^ i.val))))) ∧
     (reached d s.now = false → exec (.silenceDeadlineExpiry i leg) s = .next s))

/-- STATISTICS_TIMER_EXPIRY (R174, R175): the period index increments, the next deadline is the reached one plus the period, and each ARMED or RUNNING feed, F0
first, is offered one STATS record with the new index; no counter moves. -/
def Obligations.StatisticsAreOffered : Prop :=
  ∀ s : State, s.resetHold.held = false →
    ((∀ d, s.queue.statsDeadline = some d → reached d s.now = false) → exec .statisticsTimerExpiry s = .next s) ∧
    (∀ d, s.queue.statsDeadline = some d → reached d s.now = true → exec .statisticsTimerExpiry s =
      .next ({ s with queue := { s.queue with
          periodIndex := s.queue.periodIndex + 1, statsDeadline := some (after d (s.queue.period * 1000000000)) } }.offerAll
        (([0, 1, 2, 3, 4, 5, 6, 7, 8, 9, 10, 11, 12, 13, 14, 15].filter fun i : FeedId => (s.feed i).state != FeedState.closed).map fun i =>
          { stamp := s.reading
            body := .stats { feed := i, state := (s.feed i).state, index := s.queue.periodIndex + 1, counters := (s.feed i).counters,
                             holdLength := (s.feed i).hold.length, gapCount := (s.feed i).gaps.length,
                             candidatePresent := (s.feed i).candidate.isSome } })))

/-! ## Feed requests -/

/-- CONFIGURE FEED and OPEN FEED (R50, R51): a CLOSED feed takes a profile within the ranges whole; opened, it becomes ARMED with both legs WAITING and their
silence deadlines set, its profile and counters kept. An open feed gives STATE, a feed number above 15 RANGE. -/
def Obligations.FeedIsConfiguredAndOpened : Prop :=
  ∀ (s : State) (c : Profile) (b tag : Byte),
    (s.Admits 0x10 (b :: c.bytes) → c.InRange →
      (∀ i : FeedId, b.toNat = i.val → (s.feed i).state = .closed → exec (.configureFeed tag (b :: c.bytes)) s =
        .next ((s.setFeed i { s.feed i with profile := c }).replied 0x10 tag (.ok []))) ∧
      (∀ i : FeedId, b.toNat = i.val → (s.feed i).state ≠ .closed → exec (.configureFeed tag (b :: c.bytes)) s =
        .next (s.replied 0x10 tag (.bare .state))) ∧
      (16 ≤ b.toNat → exec (.configureFeed tag (b :: c.bytes)) s = .next (s.replied 0x10 tag (.bare .range)))) ∧
    (s.Admits 0x11 [b] →
      (∀ i : FeedId, b.toNat = i.val → (s.feed i).state = .closed → exec (.openFeed tag [b]) s =
        .next ((s.setFeed i { s.feed i with
          state := .armed
          legA := { state := .waiting, deadline := some (after s.now ((s.feed i).profile.silence * 1000000)) }
          legB := { state := .waiting, deadline := some (after s.now ((s.feed i).profile.silence * 1000000)) } }).replied 0x11 tag (.ok []))) ∧
      (∀ i : FeedId, b.toNat = i.val → (s.feed i).state ≠ .closed → exec (.openFeed tag [b]) s = .next (s.replied 0x11 tag (.bare .state))) ∧
      (16 ≤ b.toNat → exec (.openFeed tag [b]) s = .next (s.replied 0x11 tag (.bare .range))))

/-- CLOSE FEED (R52): the hold list is released in order, PAIRED or CLOSED, the gap list declared with cause CLOSED, the candidate discarded as a stray, the
legs cleared and the feed CLOSED, its profile kept; the records are offered before the result OK. A CLOSED feed gives STATE. -/
def Obligations.FeedIsClosed : Prop :=
  ∀ (s : State) (b tag : Byte), s.Admits 0x12 [b] →
    (∀ i : FeedId, b.toNat = i.val → (s.feed i).state ≠ .closed → exec (.closeFeed tag [b]) s =
      .next (((s.offerAll (releaseRecords i (s.feed i).profile.sendFormat .closed (s.feed i).hold ++
          gapRecords i .closed s.reading (s.feed i).gaps)).setFeed i
        { state := .closed, profile := (s.feed i).profile, legA := { state := .none, deadline := none },
          legB := { state := .none, deadline := none }, hold := [], gaps := [], candidate := none
          counters := .declared (s.feed i).gaps (.released (s.feed i).hold { (s.feed i).counters with
            strays := (s.feed i).counters.strays + if (s.feed i).candidate.isSome then 1 else 0 }) }).replied 0x12 tag (.ok []))) ∧
    (∀ i : FeedId, b.toNat = i.val → (s.feed i).state = .closed → exec (.closeFeed tag [b]) s = .next (s.replied 0x12 tag (.bare .state))) ∧
    (16 ≤ b.toNat → exec (.closeFeed tag [b]) s = .next (s.replied 0x12 tag (.bare .range)))

/-! ## Time base -/

/-- SET TIME and ADJUST TIME (R118, R122 to R124): a step gives the time value, exact to below the quarter-nanosecond, and the next epoch; it offers a STEP
record; a slew in flight short of its goal ends STEPPED behind it, and one that has reached its goal ends COMPLETE before it (R127, R129, R134; that a due
completion is taken first is the model's choice, log 27). SET TIME in UNSET is followed by the change to FREE with cause TIME_SET. ADJUST TIME adds a signed number of
quarter-nanoseconds; beyond 2^40 ns it gives RANGE, and then in UNSET STATE. -/
def Obligations.TimeIsStepped : Prop :=
  ∀ (s : State) (v : TimeValue) (d : Int) (tag : Byte) (u : State),
    u = ({ s with time := { s.time with value := v, sub := 0, epoch := s.time.epoch + 1 } }.offerNow
      (.step .set s.time.value v (s.time.epoch + 1))) →
    (s.Admits 0x18 v.block →
      (s.time.state ≠ .unset → s.time.slew = none → exec (.setTime tag v.block) s = .next (u.replied 0x18 tag (.ok []))) ∧
      (∀ sl, s.time.state ≠ .unset → s.time.slew = some sl → sl.applied ≠ sl.requested * 4000000000 → exec (.setTime tag v.block) s =
        .next ((({ u with time := { u.time with slew := none } }.offerNow
          (.slewEnd .stepped sl.requested (sl.applied.tdiv 4000000000) sl.rate)).raise .opDone .empty).replied 0x18 tag (.ok []))) ∧
      (∀ sl w, s.time.state ≠ .unset → s.time.slew = some sl → sl.applied = sl.requested * 4000000000 →
        w = ({ s with time := { s.time with slew := none } }.offerNow (.slewEnd .complete sl.requested sl.requested sl.rate)).raise .opDone .empty →
        exec (.setTime tag v.block) s = .next (({ w with time := { w.time with value := v, sub := 0, epoch := s.time.epoch + 1 } }.offerNow
          (.step .set s.time.value v (s.time.epoch + 1))).replied 0x18 tag (.ok []))) ∧
      (s.time.state = .unset → s.time.slew = none → exec (.setTime tag v.block) s =
        .next (({ u with time := { u.time with state := .free, p := 0 }, discipline := { s.discipline with holdoverEntry := none } }.offerNow
          (.state .unset .free .timeSet)).raise .timeState (.timeState .free) |>.replied 0x18 tag (.ok [])))) ∧
    (s.Admits 0x19 (leSigned 8 d) → -(2 ^ 63) ≤ d → d < 2 ^ 63 →
      (-(2 ^ 42) ≤ d → d ≤ 2 ^ 42 → s.time.state ≠ .unset → s.time.slew = none → exec (.adjustTime tag (leSigned 8 d)) s =
        .next (({ s with time := { s.time with value := s.time.value.add d, sub := 0, epoch := s.time.epoch + 1 } }.offerNow
          (.step .adjust s.time.value (s.time.value.add d) (s.time.epoch + 1))).replied 0x19 tag (.ok []))) ∧
      (∀ sl, -(2 ^ 42) ≤ d → d ≤ 2 ^ 42 → s.time.state ≠ .unset → s.time.slew = some sl → sl.applied ≠ sl.requested * 4000000000 →
        exec (.adjustTime tag (leSigned 8 d)) s =
        .next (((({ s with time := { s.time with value := s.time.value.add d, sub := 0, epoch := s.time.epoch + 1, slew := none } }.offerNow
          (.step .adjust s.time.value (s.time.value.add d) (s.time.epoch + 1))).offerNow
          (.slewEnd .stepped sl.requested (sl.applied.tdiv 4000000000) sl.rate)).raise .opDone .empty).replied 0x19 tag (.ok []))) ∧
      (∀ sl w, -(2 ^ 42) ≤ d → d ≤ 2 ^ 42 → s.time.state ≠ .unset → s.time.slew = some sl → sl.applied = sl.requested * 4000000000 →
        w = ({ s with time := { s.time with slew := none } }.offerNow (.slewEnd .complete sl.requested sl.requested sl.rate)).raise .opDone .empty →
        exec (.adjustTime tag (leSigned 8 d)) s =
        .next (({ w with time := { w.time with value := s.time.value.add d, sub := 0, epoch := s.time.epoch + 1 } }.offerNow
          (.step .adjust s.time.value (s.time.value.add d) (s.time.epoch + 1))).replied 0x19 tag (.ok []))) ∧
      (d < -(2 ^ 42) ∨ 2 ^ 42 < d → exec (.adjustTime tag (leSigned 8 d)) s = .next (s.replied 0x19 tag (.bare .range))) ∧
      (-(2 ^ 42) ≤ d → d ≤ 2 ^ 42 → s.time.state = .unset → exec (.adjustTime tag (leSigned 8 d)) s =
        .next (s.replied 0x19 tag (.bare .state))))

/-- SLEW (R126 to R128, R134): in UNSET and TRACKING it gives STATE; an amount of 0 cancels a slew in flight; within the ranges it starts, a slew in flight
ending REPLACED; outside them it gives RANGE and changes nothing. SLEW_COMPLETE: a slew whose applied amount has reached the requested amount ends COMPLETE; any
other goes on. A slew cancelled or replaced when it has reached the requested amount ends COMPLETE (R127, R129, R134; the model's choice, log 27), and one that
ends otherwise reports an amount from 0 up to a quarter-nanosecond less than the requested amount, with its sign (R134). -/
def Obligations.SlewStartsAndEnds : Prop :=
  (∀ (s : State) (amount : Int) (rate : Nat) (tag : Byte), s.Admits 0x1A (leSigned 4 amount ++ leBytes 4 rate) → -(2 ^ 31) ≤ amount → amount < 2 ^ 31 →
     rate < 2 ^ 32 →
     (s.time.state = .unset ∨ s.time.state = .tracking → exec (.slew tag (leSigned 4 amount ++ leBytes 4 rate)) s =
       .next (s.replied 0x1A tag (.bare .state))) ∧
     (s.time.state = .free ∨ s.time.state = .holdover →
       (amount = 0 → s.time.slew = none → exec (.slew tag (leSigned 4 amount ++ leBytes 4 rate)) s = .next (s.replied 0x1A tag (.ok []))) ∧
       (∀ sl, amount = 0 → s.time.slew = some sl → exec (.slew tag (leSigned 4 amount ++ leBytes 4 rate)) s =
         .next ((({ s with time := { s.time with slew := none } }.offerNow
           (.slewEnd (if sl.applied = sl.requested * 4000000000 then .complete else .cancelled) sl.requested
             (sl.applied.tdiv 4000000000) sl.rate)).raise .opDone .empty).replied 0x1A tag (.ok []))) ∧
       (amount ≠ 0 → (-2000000000 ≤ amount ∧ amount ≤ 2000000000 ∧ 1 ≤ rate ∧ rate ≤ 200000 ∧ s.time.f.natAbs + 16 * rate ≤ 3200000) →
         (s.time.slew = none → exec (.slew tag (leSigned 4 amount ++ leBytes 4 rate)) s =
           .next ({ s with time := { s.time with slew := some { requested := amount, applied := 0, rate := rate } } }.replied 0x1A tag (.ok []))) ∧
         (∀ sl, s.time.slew = some sl → exec (.slew tag (leSigned 4 amount ++ leBytes 4 rate)) s =
           .next ((({ s with time := { s.time with slew := some { requested := amount, applied := 0, rate := rate } } }.offerNow
             (.slewEnd (if sl.applied = sl.requested * 4000000000 then .complete else .replaced) sl.requested
               (sl.applied.tdiv 4000000000) sl.rate)).raise .opDone .empty).replied 0x1A tag (.ok [])))) ∧
       (amount ≠ 0 → ¬ (-2000000000 ≤ amount ∧ amount ≤ 2000000000 ∧ 1 ≤ rate ∧ rate ≤ 200000 ∧ s.time.f.natAbs + 16 * rate ≤ 3200000) →
         exec (.slew tag (leSigned 4 amount ++ leBytes 4 rate)) s = .next (s.replied 0x1A tag (.bare .range))))) ∧
  (∀ s : State, s.resetHold.held = false →
     (∀ sl, s.time.slew = some sl → sl.applied = sl.requested * 4000000000 → exec .slewComplete s =
       .next (({ s with time := { s.time with slew := none } }.offerNow (.slewEnd .complete sl.requested sl.requested sl.rate)).raise .opDone .empty)) ∧
     (∀ sl, s.time.slew = some sl → sl.applied ≠ sl.requested * 4000000000 → exec .slewComplete s = .next s) ∧
     (s.time.slew = none → exec .slewComplete s = .next s)) ∧
  (∀ (s : State) (sl : SlewFlight), s.TimeSound → s.time.slew = some sl → sl.applied ≠ sl.requested * 4000000000 →
     (0 < sl.requested → 0 ≤ sl.applied.tdiv 4000000000 ∧ sl.applied.tdiv 4000000000 ≤ sl.requested - 1) ∧
     (sl.requested < 0 → sl.requested + 1 ≤ sl.applied.tdiv 4000000000 ∧ sl.applied.tdiv 4000000000 ≤ 0))

/-- SET RATE (R130): STATE in TRACKING; elsewhere RANGE when f exceeds 100,000 ppb in magnitude, or with the rate of a slew in flight 200,000 ppb; otherwise f
is replaced, in units of 1/16 ppb, and nothing else, the slew and its progress among it. -/
def Obligations.RateIsSet : Prop :=
  ∀ (s : State) (f : Int) (tag : Byte), s.Admits 0x1B (leSigned 4 f) → -(2 ^ 31) ≤ f → f < 2 ^ 31 →
    (s.time.state = .tracking → exec (.setRate tag (leSigned 4 f)) s = .next (s.replied 0x1B tag (.bare .state))) ∧
    (s.time.state ≠ .tracking →
      ((100000 * 16 < f.natAbs ∨ ∃ sl, s.time.slew = some sl ∧ 200000 * 16 < f.natAbs + 16 * sl.rate) →
        exec (.setRate tag (leSigned 4 f)) s = .next (s.replied 0x1B tag (.bare .range))) ∧
      (f.natAbs ≤ 100000 * 16 → (∀ sl, s.time.slew = some sl → f.natAbs + 16 * sl.rate ≤ 200000 * 16) →
        exec (.setRate tag (leSigned 4 f)) s = .next ({ s with time := { s.time with f := f } }.replied 0x1B tag (.ok []))))

/-! ## References and discipline -/

/-- A pulse taken in ABSENT is accepted: the monitor enters QUALIFYING with k = 1, and the pulse is the last accepted one, its timeout deadline 10^9 ns and W
later; the change is reported (R138, R140, R143; the premise is the model's invariant of the followed reference). A pulse in QUALIFYING (R141): a good interval
raises k, short of Q; a short one begins again with k = 1; both make the pulse the last accepted one, count no early pulse and offer no record. With k reaching Q
the monitor enters QUALIFIED, no early pulse pending. The edge that is not the active one, and any edge in OFF, is no pulse (R138). -/
def Obligations.PulsesBeforeQualified : Prop :=
  (∀ (s : State) (r : RefId) (edge : Edge), s.resetHold.held = false → s.Following → (s.monitor r).edge = edge → (s.monitor r).watch = .absent →
     ∃ t, t = s.setMonitor r { s.monitor r with watch := .qualifying 1 s.now } ∧
       exec (.referencePulse r edge) s = .next ((t.offerNow (.reference r .absent .qualifying .firstPulse)).raise .reference
         (.monitors t.monitors.a.watch.state t.monitors.b.watch.state)) ∧
       t.timeoutDeadline r = some (after s.now (1000000000 + s.discipline.params.window * 1000))) ∧
  (∀ (s : State) (r : RefId) (edge : Edge), s.resetHold.held = false →
     ((s.monitor r).edge ≠ edge ∨ (s.monitor r).watch = .off → exec (.referencePulse r edge) s = .next s) ∧
     (∀ k last, (s.monitor r).edge = edge → (s.monitor r).watch = .qualifying k last →
       ((s.now - last).toNat < 1000000000 - s.discipline.params.window * 1000 → exec (.referencePulse r edge) s =
         .next (s.setMonitor r { s.monitor r with watch := .qualifying 1 s.now })) ∧
       (1000000000 - s.discipline.params.window * 1000 ≤ (s.now - last).toNat →
         (s.now - last).toNat ≤ 1000000000 + s.discipline.params.window * 1000 →
         (k + 1 < s.discipline.params.count → exec (.referencePulse r edge) s =
           .next (s.setMonitor r { s.monitor r with watch := .qualifying (k + 1) s.now })) ∧
         (s.discipline.params.count ≤ k + 1 → ∃ t, exec (.referencePulse r edge) s = .next t ∧ (t.monitor r).watch = .qualified s.now false ∧
           (t.monitor r).earlyPulses = (s.monitor r).earlyPulses))))

/-- The re-choice (R147, R148): the followed reference becomes the policy's first QUALIFIED one, a change being reported as a SWITCH; with a reference newly
followed the time base enters TRACKING, a slew in flight ending first (R128), COMPLETE when it has reached its goal (log 27) and TRACKING otherwise; with none
left it enters FREE under policy NONE, from HOLDOVER too, and HOLDOVER otherwise, the entry being recorded; in TRACKING a reference that takes another's place
sets p to 0. That the SLEW_END record, which R121 puts before the STATE record, is stamped with the old state is the model's choice (log 11). -/
def Obligations.RechoiceMovesTheTimeBase : Prop :=
  ∀ (s : State) (event : ChoiceEvent) (u : State), u = { s with discipline := { s.discipline with followed := s.choice } }.offerNow
      (.switch s.discipline.followed s.choice (switchCause event s.choice)) →
    (s.Following → s.rechoose event = s) ∧
    (∀ r, s.discipline.followed = none → s.choice = some r → s.time.state ≠ .tracking → s.time.slew = none → s.rechoose event =
      ({ u with time := { u.time with state := .tracking, p := 0 }, discipline := { u.discipline with holdoverEntry := none } }.offerNow
        (.state s.time.state .tracking .referenceFollowed)).raise .timeState (.timeState .tracking)) ∧
    (∀ r sl v, s.discipline.followed = none → s.choice = some r → s.time.state ≠ .tracking → s.time.slew = some sl →
      v = ({ u with time := { u.time with slew := none } }.offerNow
        (.slewEnd (if sl.applied = sl.requested * 4000000000 then .complete else .tracking) sl.requested (sl.applied.tdiv 4000000000) sl.rate)).raise .opDone .empty →
      s.rechoose event = ({ v with
          time := { v.time with state := .tracking, p := 0 }, discipline := { v.discipline with holdoverEntry := none } }.offerNow
        (.state s.time.state .tracking .referenceFollowed)).raise .timeState (.timeState .tracking)) ∧
    (∀ r, s.discipline.followed = some r → s.choice = none → s.time.state = .tracking → s.discipline.policy ≠ .none → s.rechoose event =
      ({ u with time := { u.time with state := .holdover, p := 0 }, discipline := { u.discipline with holdoverEntry := some s.now } }.offerNow
        (.state .tracking .holdover .referenceLost)).raise .timeState (.timeState .holdover)) ∧
    (∀ r, s.discipline.followed = some r → s.choice = none → s.time.state = .tracking → s.discipline.policy = .none → s.rechoose event =
      ({ u with time := { u.time with state := .free, p := 0 }, discipline := { u.discipline with holdoverEntry := none } }.offerNow
        (.state .tracking .free .policyNone)).raise .timeState (.timeState .free)) ∧
    (s.discipline.followed = none → s.choice = none → s.time.state = .holdover → s.discipline.policy = .none → s.rechoose event =
      ({ s with time := { s.time with state := .free, p := 0 }, discipline := { s.discipline with holdoverEntry := none } }.offerNow
        (.state .holdover .free .policyNone)).raise .timeState (.timeState .free)) ∧
    (∀ r q, s.discipline.followed = some r → s.choice = some q → q ≠ r → s.time.state = .tracking →
      s.rechoose event = { u with time := { u.time with p := 0 } })

/-- A pulse in QUALIFIED with a short interval (R142): the first sets early pending and is counted; the second in a row is counted too and takes the monitor to
ABSENT with cause EARLY. REFERENCE_TIMEOUT (R138, R142): a monitor in QUALIFYING or QUALIFIED whose deadline is reached enters ABSENT with cause TIMEOUT; before the
deadline, and in OFF and ABSENT, there is no timeout. The re-choice follows, and a measurement on the reference ends LOST. -/
def Obligations.EarlyPulsesAndTimeouts : Prop :=
  (∀ (s : State) (r : RefId) (edge : Edge) (last : LocalCount) (early : Bool) (u : State), s.resetHold.held = false → (s.monitor r).edge = edge →
     (s.monitor r).watch = .qualified last early → (s.now - last).toNat < 1000000000 - s.discipline.params.window * 1000 →
     (early = false → exec (.referencePulse r edge) s = .next (s.setMonitor r { s.monitor r with
       watch := .qualified last true, earlyPulses := (s.monitor r).earlyPulses + 1 })) ∧
     (early = true → u = s.setMonitor r { s.monitor r with watch := .absent, earlyPulses := (s.monitor r).earlyPulses + 1 } →
       exec (.referencePulse r edge) s = .next ((((u.offerNow (.reference r .qualified .absent .early)).raise .reference
         (.monitors u.monitors.a.watch.state u.monitors.b.watch.state)).rechoose (.monitor r)).endMeasureOn r .lost))) ∧
  (∀ (s : State) (r : RefId) (u : State), s.resetHold.held = false →
     u = s.setMonitor r { s.monitor r with watch := .absent } →
     (∀ last, (s.monitor r).watch.last = some last →
       (reached (after last (1000000000 + s.discipline.params.window * 1000)) s.now = true → exec (.referenceTimeout r) s =
         .next ((((u.offerNow (.reference r (s.monitor r).watch.state .absent .timeout)).raise .reference
           (.monitors u.monitors.a.watch.state u.monitors.b.watch.state)).rechoose (.monitor r)).endMeasureOn r .lost)) ∧
       (reached (after last (1000000000 + s.discipline.params.window * 1000)) s.now = false → exec (.referenceTimeout r) s = .next s)) ∧
     ((s.monitor r).watch.last = none → exec (.referenceTimeout r) s = .next s))

/-- The tracking law at an accepted pulse of the followed reference in TRACKING (R144, R149 to R152): e is the reading less the reference deskew, taken to the
nearest second. At or below T, f and p are corrected; above it the time base is stepped by −e and p is 0 when a step is permitted, and p alone is corrected and
the large error counted when not. The pulse then goes to a measurement on the reference (R155). -/
def Obligations.TrackingLawCorrectsTheRate : Prop :=
  ∀ (s : State) (r : RefId) (edge : Edge) (last : LocalCount) (early : Bool) (v : TimeValue) (e : Int) (u : State),
    s.resetHold.held = false → (s.monitor r).edge = edge → (s.monitor r).watch = .qualified last early → s.discipline.followed = some r →
    s.time.state = .tracking → s.time.slew = none →
    1000000000 - s.discipline.params.window * 1000 ≤ (s.now - last).toNat → (s.now - last).toNat ≤ 1000000000 + s.discipline.params.window * 1000 →
    v = s.time.value.add (-(s.monitor r).deskew) →
    e = (if v.nanos.val * 4 + v.quarters.val < 2000000000 then ((v.nanos.val * 4 + v.quarters.val : Nat) : Int)
         else ((v.nanos.val * 4 + v.quarters.val : Nat) : Int) - 4000000000) →
    u = s.setMonitor r { s.monitor r with watch := .qualified s.now false } →
    ((e.natAbs : Int) ≤ s.discipline.params.threshold * 4000 → exec (.referencePulse r edge) s =
      .next (State.measurePulse r { u with time := { s.time with
        f := clamp 1600000 (s.time.f - e.tdiv s.discipline.params.settle)
        p := clamp 3200000 ((-(4 * e)).tdiv s.discipline.params.settle) } })) ∧
    ((s.discipline.params.threshold : Int) * 4000 < e.natAbs → s.discipline.params.stepPermitted = true → exec (.referencePulse r edge) s =
      .next (State.measurePulse r { ({ u with time := { s.time with value := s.time.value.add (-e), sub := 0, epoch := s.time.epoch + 1 } }.offerNow
          (.step .discipline s.time.value (s.time.value.add (-e)) (s.time.epoch + 1))) with
        time := { s.time with value := s.time.value.add (-e), sub := 0, epoch := s.time.epoch + 1, p := 0 } })) ∧
    ((s.discipline.params.threshold : Int) * 4000 < e.natAbs → s.discipline.params.stepPermitted = false → exec (.referencePulse r edge) s =
      .next (State.measurePulse r { u with
        time := { s.time with p := clamp 3200000 ((-(4 * e)).tdiv s.discipline.params.settle) }
        discipline := { s.discipline with largeErrors := s.discipline.largeErrors + 1 } }))

/-- HOLDOVER_TIMER_EXPIRY (R120, R153): in HOLDOVER, with H above 0 and H seconds of local count since the entry, the state becomes FREE with cause
HOLDOVER_LIMIT; before that, with H of 0, and in any other state, nothing expires. -/
def Obligations.HoldoverExpires : Prop :=
  ∀ (s : State) (entry : LocalCount), s.resetHold.held = false →
    (s.time.state = .holdover → 0 < s.discipline.params.holdoverLimit → s.discipline.holdoverEntry = some entry →
      (reached (after entry (s.discipline.params.holdoverLimit * 1000000000)) s.now = true → exec .holdoverTimerExpiry s =
        .next (({ s with time := { s.time with state := .free, p := 0 }, discipline := { s.discipline with holdoverEntry := none } }.offerNow
          (.state .holdover .free .holdoverLimit)).raise .timeState (.timeState .free))) ∧
      (reached (after entry (s.discipline.params.holdoverLimit * 1000000000)) s.now = false → exec .holdoverTimerExpiry s = .next s)) ∧
    (s.time.state ≠ .holdover ∨ s.discipline.params.holdoverLimit = 0 → exec .holdoverTimerExpiry s = .next s)

/-- CONFIGURE REFERENCE (R139): the three values are replaced together; OFF becomes ABSENT when enabled, and every other state OFF when disabled; a change of the
active edge takes QUALIFYING and QUALIFIED to ABSENT; in every other case the state is kept. Each change is reported and followed by the re-choice and the end of
a measurement on the reference. -/
def Obligations.ReferenceIsConfigured : Prop :=
  ∀ (s : State) (r : RefId) (enable : Bool) (deskew : Nat) (edge : Edge) (tag : Byte) (p : List Byte) (u : State), deskew ≤ 262143 →
    p = refCode (some r) :: boolCode enable :: leBytes 4 deskew ++ [if edge = .rising then (0 : Byte) else 1] → s.Admits 0x20 p →
    u = s.setMonitor r { s.monitor r with enable := enable, deskew := deskew, edge := edge } →
    ((s.monitor r).watch = .off → enable = false → exec (.configureReference tag p) s = .next (u.replied 0x20 tag (.ok []))) ∧
    ((s.monitor r).watch = .absent → enable = true → exec (.configureReference tag p) s = .next (u.replied 0x20 tag (.ok []))) ∧
    ((s.monitor r).watch.last.isSome = true → enable = true → (s.monitor r).edge = edge → exec (.configureReference tag p) s =
      .next (u.replied 0x20 tag (.ok []))) ∧
    ((s.monitor r).watch = .off → enable = true → exec (.configureReference tag p) s =
      .next ((((u.changeMonitor r .absent .enabled).rechoose (.monitor r)).endMeasureOn r .lost).replied 0x20 tag (.ok []))) ∧
    ((s.monitor r).watch ≠ .off → enable = false → exec (.configureReference tag p) s =
      .next ((((u.changeMonitor r .off .disabled).rechoose (.monitor r)).endMeasureOn r .disabled).replied 0x20 tag (.ok []))) ∧
    ((s.monitor r).watch.last.isSome = true → enable = true → (s.monitor r).edge ≠ edge → exec (.configureReference tag p) s =
      .next ((((u.changeMonitor r .absent .edgeChanged).rechoose (.monitor r)).endMeasureOn r .lost).replied 0x20 tag (.ok [])))

/-- CONFIGURE DISCIPLINE and TRACK (R145 to R147, R153, R157): in TRACKING CONFIGURE DISCIPLINE gives STATE; elsewhere the six parameters within their ranges are
replaced together, and the timeouts of REF A and REF B and the holdover expiry that they bring follow. TRACK replaces the policy and brings the re-choice, behind
a completion of a slew that is due (the model's choice, log 27); its result carries the policy, the followed reference and three totals. -/
def Obligations.DisciplineIsConfiguredAndTracks : Prop :=
  ∀ (s : State) (c : DisciplineParams) (policy : Policy) (tag : Byte) (p : List Byte),
    p = leBytes 2 c.window ++ leBytes 1 c.count ++ leBytes 1 c.settle ++ leBytes 4 c.threshold ++ boolCode c.stepPermitted ::
      leBytes 2 c.holdoverLimit →
    (s.Admits 0x21 p →
      (s.time.state = .tracking → exec (.configureDiscipline tag p) s = .next (s.replied 0x21 tag (.bare .state))) ∧
      (s.time.state ≠ .tracking → 1 ≤ c.window → c.window ≤ 1000 → 2 ≤ c.count → c.count ≤ 15 → 1 ≤ c.settle → c.settle ≤ 64 →
        1 ≤ c.threshold → c.threshold ≤ 500000 → c.holdoverLimit ≤ 65535 → exec (.configureDiscipline tag p) s =
        .next ((((({ s with discipline := { s.discipline with params := c } }).timeoutMonitor .a).timeoutMonitor .b).expireHoldover).replied
          0x21 tag (.ok [])))) ∧
    (s.Admits 0x22 [policy.code] → ∃ t, t = (s.completeSlew.setPolicy policy).rechoose .track ∧
      exec (.track tag [policy.code]) s = .next (t.replied 0x22 tag (.ok ([policy.code, refCode t.discipline.followed] ++
        leBytes 4 t.discipline.largeErrors.toNat ++ leBytes 4 t.monitors.a.earlyPulses.toNat ++ leBytes 4 t.monitors.b.earlyPulses.toNat))))

/-- MEASURE and its pulses (R154 to R156): it starts on a QUALIFIED reference with none in flight; an amount of 0 cancels one; the accepted pulses that follow
give its first pulse and then one interval each, and with the Nth it ends COMPLETE. -/
def Obligations.MeasurementRuns : Prop :=
  ∀ (s : State) (r : RefId) (b tag : Byte),
    (s.Admits 0x23 [refCode (some r), b] →
      (2 ≤ b.toNat → b.toNat ≤ 64 → s.discipline.measurement = none → s.isQualified r = true → exec (.measure tag [refCode (some r), b]) s =
        .next ({ s with discipline := { s.discipline with
          measurement := some { ref := r, n := b.toNat, intervals := 0, first := none, span := 0 } } }.replied 0x23 tag (.ok []))) ∧
      (2 ≤ b.toNat → b.toNat ≤ 64 → (s.discipline.measurement ≠ none ∨ s.isQualified r = false) →
        exec (.measure tag [refCode (some r), b]) s = .next (s.replied 0x23 tag (.bare .state))) ∧
      (b.toNat = 1 ∨ 64 < b.toNat → exec (.measure tag [refCode (some r), b]) s = .next (s.replied 0x23 tag (.bare .range))) ∧
      (b = 0 → s.discipline.measurement = none → exec (.measure tag [refCode (some r), b]) s = .next (s.replied 0x23 tag (.ok []))) ∧
      (∀ m, b = 0 → s.discipline.measurement = some m → exec (.measure tag [refCode (some r), b]) s =
        .next ((({ s with discipline := { s.discipline with measurement := none } }.offerNow
          (.measureEnd m.ref .cancelled m.n m.intervals m.result)).raise .opDone .empty).replied 0x23 tag (.ok [])))) ∧
    (∀ m, s.discipline.measurement = some m → m.ref = r →
      (m.first = none → m.intervals < m.n → s.measurePulse r =
        { s with discipline := { s.discipline with measurement := some { m with first := some s.now } } }) ∧
      (∀ first, m.first = some first → m.intervals + 1 < m.n → s.measurePulse r =
        { s with discipline := { s.discipline with measurement := some { m with intervals := m.intervals + 1, span := s.now - first } } }) ∧
      (∀ first, m.first = some first → m.intervals + 1 = m.n → s.measurePulse r =
        ({ s with discipline := { s.discipline with measurement := none } }.offerNow
          (.measureEnd r .complete m.n m.n (some ((16 * (((s.now - first).toNat : Int) - m.n * 1000000000)).tdiv m.n)))).raise .opDone .empty))

/-! ## Record queue -/

/-- What the queue does with an ordinary record (R161 to R164): at an occupancy of 4,094 or less it is appended; otherwise it is lost, merged into a marker at
the tail, or into a new one behind an ordinary record, which raises OVERFLOW. A new entry that brings the occupancy to the threshold while the warning is armed
raises QUEUE_WARNING and disarms it. -/
def Obligations.RecordsAreAppendedOrLost : Prop :=
  ∀ (s : State) (r : Record) (warns : Bool), warns = (s.queue.armed && s.queue.entries.length + 1 == s.queue.threshold) →
    (s.queue.entries.length ≤ 4094 → s.offer r = { s with
      queue := { s.queue with
        entries := s.queue.entries ++ [.record r], offered := s.queue.offered + 1, armed := s.queue.armed && !warns },
      notices := (if warns then s.notices.raise .queueWarning .empty else s.notices) }) ∧
    (4095 ≤ s.queue.entries.length →
      (∀ (front : List Entry) (m : Marker), s.queue.entries = front ++ [.marker m] → s.offer r = { s with
        queue := { s.queue with
          entries := front ++ [.marker { m with
            lost := if m.lost.toNat = 4294967295 then m.lost else m.lost + 1, last := s.reading,
            kinds := m.kinds ||| BitVec.ofNat 8 (2 ^ (r.body.kindCode - 1)) }],
          offered := s.queue.offered + 1, lost := s.queue.lost + 1 } }) ∧
      (∀ (front : List Entry) (x : Record), s.queue.entries = front ++ [.record x] → s.offer r = { s with
        queue := { s.queue with
          entries := s.queue.entries ++ [.marker { lost := 1, first := s.reading, last := s.reading, kinds := BitVec.ofNat 8 (2 ^ (r.body.kindCode - 1)) }],
          offered := s.queue.offered + 1, lost := s.queue.lost + 1, armed := s.queue.armed && !warns },
        notices := (if warns then s.notices.raise .queueWarning .empty else s.notices).raise .overflow .empty }))

/-- CONFIGURE QUEUE (R164, R165, R174): within the ranges both values are replaced and the statistics timer starts afresh, or stops with a period of 0; an armed
warning at or above the new threshold is raised and disarmed, a disarmed one at the new re-arm level or below is armed. Outside the ranges it gives RANGE. -/
def Obligations.QueueIsConfigured : Prop :=
  ∀ (s : State) (threshold period : Nat) (tag : Byte) (p : List Byte), p = leBytes 2 threshold ++ leBytes 2 period → s.Admits 0x28 p →
    threshold < 65536 → period < 65536 →
    (256 ≤ threshold → threshold ≤ 4095 → period ≤ 3600 → ∃ q : RecordQueue,
      q = { s.queue with threshold := threshold, period := period,
                         statsDeadline := if period = 0 then none else some (after s.now (period * 1000000000)) } ∧
      (s.queue.armed = true → threshold ≤ s.queue.entries.length → exec (.configureQueue tag p) s =
        .next (({ s with queue := { q with armed := false } }.raise .queueWarning .empty).replied 0x28 tag (.ok []))) ∧
      (s.queue.armed = true → s.queue.entries.length < threshold → exec (.configureQueue tag p) s =
        .next ({ s with queue := q }.replied 0x28 tag (.ok []))) ∧
      (s.queue.armed = false → exec (.configureQueue tag p) s =
        .next ({ s with queue := { q with armed := decide (s.queue.entries.length ≤ threshold - 512) } }.replied 0x28 tag (.ok [])))) ∧
    (threshold < 256 ∨ 4095 < threshold ∨ 3600 < period → exec (.configureQueue tag p) s = .next (s.replied 0x28 tag (.bare .range)))

/-- FETCH in IDLE (R166, R168, R170): it begins a fetch of N records, or an unbounded one with 0, and its result is owed; a bounded one that finds the queue empty
ends at once with cause EMPTY. HALT (R171): with no fetch running it gives STATE; with one, the fetch ends HALTED at once, the FETCH's result before the HALT's,
unless a RECORD frame is in progress, which is sent to its end first. -/
def Obligations.FetchesBeginAndAreHalted : Prop :=
  (∀ (s : State) (n : Nat) (tag : Byte), s.Admits 0x29 (leBytes 2 n) → n < 65536 →
     (n = 0 ∨ s.queue.entries ≠ [] → exec (.fetch tag (leBytes 2 n)) s =
       .next { s.arrived with link := { s.arrived.link with engine := .delivering { tag := tag, n := n, sent := 0, halts := [] } } }) ∧
     (n ≠ 0 → s.queue.entries = [] → exec (.fetch tag (leBytes 2 n)) s = .next (s.replied 0x29 tag (.ok (2 :: leBytes 4 0 ++ leBytes 2 0))))) ∧
  (∀ (s : State) (tag : Byte), s.resetHold.held = false → s.link.up = true → s.link.framer ≠ .ignoring → s.link.occupancy < 4 →
     (s.link.engine = .idle → exec (.halt tag []) s = .next (s.replied 0x2A tag (.bare .state))) ∧
     (∀ f, s.link.engine = .delivering f →
       ((∃ out, s.link.outFrame = some out ∧ out.kind = .record) → exec (.halt tag []) s =
         .next { s.arrived with link := { s.arrived.link with engine := .delivering { f with halts := f.halts ++ [tag] } } }) ∧
       ((∀ out, s.link.outFrame = some out → out.kind ≠ .record) → f.halts = [] → s.link.owed = 1 → exec (.halt tag []) s =
         .next { s with link := { s.link with
           framer := .hunting, engine := .idle, owed := 0
           queued := s.link.queued ++
             [{ tag := f.tag, kind := 0x29, code := .ok, fields := 3 :: leBytes 4 f.sent.toNat ++ leBytes 2 s.queue.entries.length },
              { tag := tag, kind := 0x2A, code := .ok, fields := [] }] } })))

/-- RECORD_FRAME_COMPLETE (R163, R164, R167 to R171): the head entry is removed, an ordinary record passing to records delivered; records sent increments; the
warning is armed again at the re-arm level; the fetch then ends HALTED, COUNT or EMPTY, in this order, or goes on. With no RECORD frame in progress nothing is
complete. -/
def Obligations.RecordFrameRemovesTheHead : Prop :=
  ∀ (s : State) (e : Entry) (rest : List Entry) (f : Fetch) (out : OutFrame) (u : State), s.resetHold.held = false →
    ((∀ o, s.link.outFrame = some o → o.kind ≠ .record) → exec .recordFrameComplete s = .next s) ∧
    (s.link.outFrame = some out → out.kind = .record → s.link.engine = .delivering f → s.queue.entries = e :: rest → s.link.owed = 1 + f.halts.length →
      u = { s with
        queue := { s.queue with
          entries := rest, delivered := s.queue.delivered + (if e.isMarker then 0 else 1),
          armed := s.queue.armed || decide (rest.length ≤ s.queue.threshold - 512) },
        link := { s.link with outFrame := none } } →
      (f.halts = [] → (f.n = 0 ∨ (f.sent + 1).toNat ≠ f.n ∧ rest ≠ []) → exec .recordFrameComplete s =
        .next { u with link := { u.link with engine := .delivering { f with sent := f.sent + 1 } } }) ∧
      (f.halts = [] → s.link.up = true → f.n ≠ 0 → ((f.sent + 1).toNat = f.n ∨ rest = []) → exec .recordFrameComplete s =
        .next { u with link := { u.link with
          engine := .idle, owed := 0
          queued := u.link.queued ++ [{ tag := f.tag, kind := 0x29, code := .ok,
                                        fields := (if (f.sent + 1).toNat = f.n then 1 else 2) :: leBytes 4 (f.sent + 1).toNat ++
                                          leBytes 2 rest.length }] } }) ∧
      (f.halts ≠ [] → s.link.up = true → exec .recordFrameComplete s =
        .next { u with link := { u.link with
          engine := .idle, owed := 0
          queued := u.link.queued ++ { tag := f.tag, kind := 0x29, code := .ok,
                                       fields := 3 :: leBytes 4 (f.sent + 1).toNat ++ leBytes 2 rest.length } ::
            f.halts.map fun t => { tag := t, kind := 0x2A, code := .ok, fields := [] } } }))

/-! ## Link -/

/-- OUTBOUND_CHOICE (R177, R183, R187, R193): with the link UP, the lane idle and no restart due (R191; that nothing is chosen while one is due is the model's
choice, log 16), the owed START goes first, then the oldest result, then the first
source by priority that is pending and enabled, which is cleared, then the head record of a fetch that is not halting; otherwise nothing is chosen. -/
def Obligations.OutboundChoiceIsByPriority : Prop :=
  ∀ s : State, s.resetHold.held = false →
    (s.link.up = false ∨ s.link.outFrame ≠ none ∨ s.link.restartDue = true → exec .outboundChoice s = .next s) ∧
    (s.link.up = true → s.link.outFrame = none → s.link.restartDue = false →
      (∀ cause, s.link.startOwed = some cause → exec .outboundChoice s = .next { s with link := { s.link with
        outFrame := some { kind := .start, bytes := wireFrame 0x83 0 [0x16, 0x08, 1, cause.code, s.time.state.code] } } }) ∧
      (s.link.startOwed = none →
        (∀ r rest, s.link.queued = r :: rest → exec .outboundChoice s = .next { s with link := { s.link with
          outFrame := some { kind := .result, bytes := wireFrame 0x80 r.tag (r.code.code :: r.kind :: r.fields) } } }) ∧
        (s.link.queued = [] →
          (∀ id, (s.notices.get id).pending = true → (s.notices.get id).enabled = true →
            (∀ j, (NoticeId.code j).toNat < (NoticeId.code id).toNat → (s.notices.get j).pending = false ∨ (s.notices.get j).enabled = false) →
            exec .outboundChoice s = .next { s with
              notices := s.notices.set id { s.notices.get id with pending := false, occurrences := 0, summary := .empty },
              link := { s.link with
                outFrame := some {
                  kind := .notice id (s.notices.get id).occurrences (s.notices.get id).summary,
                  bytes := wireFrame 0x82 0 (id.code :: (s.notices.get id).occurrences :: (s.notices.get id).summary.bytes) } } }) ∧
          ((∀ j, (s.notices.get j).pending = false ∨ (s.notices.get j).enabled = false) →
            (∀ f e rest, s.link.engine = .delivering f → f.halts = [] → s.queue.entries = e :: rest → exec .outboundChoice s =
              .next { s with link := { s.link with outFrame := some { kind := .record, bytes := wireFrame 0x81 f.tag e.bytes } } }) ∧
            (((∀ f, s.link.engine = .delivering f → f.halts ≠ []) ∨ s.queue.entries = []) → exec .outboundChoice s = .next s)))))

/-- RESULT_FRAME_COMPLETE, START_FRAME_COMPLETE and NOTICE_FRAME_COMPLETE (R178, R180, R191, R193): the lane is idle; the oldest result leaves the FIFO, a
RESTART's making the restart due; the START is no longer owed and the framer leaves IGNORING. A completion of a kind that is not in progress is none. -/
def Obligations.OutboundFramesComplete : Prop :=
  ∀ s : State, s.resetHold.held = false →
    (∀ o, s.link.outFrame = some o →
      (∀ r rest, o.kind = .result → s.link.queued = r :: rest → exec .resultFrameComplete s = .next { s with link := { s.link with
        outFrame := none, queued := rest, restartDue := s.link.restartDue || (r.kind == 0x32 && r.code == .ok) } }) ∧
      (o.kind = .start → exec .startFrameComplete s = .next { s with link := { s.link with
        outFrame := none, startOwed := none, framer := if s.link.framer = .ignoring then .hunting else s.link.framer } }) ∧
      (∀ id n x, o.kind = .notice id n x → exec .noticeFrameComplete s = .next { s with link := { s.link with outFrame := none } })) ∧
    ((∀ o, s.link.outFrame = some o → o.kind ≠ .result) → exec .resultFrameComplete s = .next s) ∧
    ((∀ o, s.link.outFrame = some o → o.kind ≠ .start) → exec .startFrameComplete s = .next s) ∧
    ((∀ o id n x, s.link.outFrame = some o → o.kind ≠ .notice id n x) → exec .noticeFrameComplete s = .next s)

/-- LINK_DOWN and LINK_UP (R173, R178, R184, R185, R188, R191): the link going DOWN cuts the frame in progress, empties the result FIFO with every result owed, ends
a running fetch without a result, leaves a request in EXECUTING under way with its result lost, discards an inbound frame in progress without count, keeps an owed
START, merges an unsent notice back into its source, and makes a restart due whose result is lost; coming UP it keeps everything, a request in EXECUTING too. -/
def Obligations.LinkGoesDownAndComesUp : Prop :=
  ∀ s : State, s.resetHold.held = false →
    (s.link.up = true → ∃ t, exec .linkDown s = .next t ∧ t = { s with
        pins := { s.pins with linkSd := false }, notices := t.notices, link := t.link } ∧
      t.link.up = false ∧ t.link.queued = [] ∧ t.link.owed = 0 ∧ t.link.outFrame = none ∧ t.link.startOwed = s.link.startOwed ∧
      t.link.linkErrors = s.link.linkErrors ∧
      t.link.restartDue = (s.link.restartDue || s.link.queued.any fun r => r.kind == 0x32 && r.code == .ok) ∧
      ((∃ f, s.link.engine = .delivering f) → t.link.engine = .idle) ∧ (s.link.engine = .idle → t.link.engine = .idle) ∧
      (∀ r, s.link.engine = .executing r → t.link.engine = .executing { r with lost := true }) ∧
      (s.link.framer = .ignoring → t.link.framer = .ignoring) ∧ (s.link.framer ≠ .ignoring → t.link.framer = .hunting) ∧
      (∀ b id n x, s.link.outFrame = some { kind := .notice id n x, bytes := b } → t.notices = s.notices.set id { s.notices.get id with
        pending := true,
        occurrences := if n.toNat + (s.notices.get id).occurrences.toNat ≤ 255 then n + (s.notices.get id).occurrences else 255,
        summary := x.merge (s.notices.get id).summary }) ∧
      ((∀ o id n x, s.link.outFrame = some o → o.kind ≠ .notice id n x) → t.notices = s.notices)) ∧
    (s.link.up = false → exec .linkDown s = .next { s with pins := { s.pins with linkSd := false } }) ∧
    exec .linkUp s = .next { s with pins := { s.pins with linkSd := true }, link := { s.link with up := true } }

/-- Requests turned away (R179, R181): a complete frame that finds the result FIFO full is discarded as a link error; a kind that is not a request kind is answered
UNKNOWN, a wrong length LENGTH, a request while another is in EXECUTING or a fetch runs BUSY, a HALT excepted, and a HALT in EXECUTING STATE, whether the link has
gone DOWN and UP since the other request was handed over or not (R185); in IGNORING no frame is taken. The framer is then in HUNTING, and nothing else changes. -/
def Obligations.RequestsAreTurnedAway : Prop :=
  (∀ (s : State) (kind tag : Byte) (payload : List Byte), s.resetHold.held = false → s.link.up = true → payload.length ≤ 1024 →
     (s.link.framer = .ignoring → exec (Instr.ofFrame kind tag payload) s = .next s) ∧
     (s.link.framer ≠ .ignoring →
       (4 ≤ s.link.occupancy → exec (Instr.ofFrame kind tag payload) s =
         .next ({ s with link := { s.link with framer := .hunting, linkErrors := s.link.linkErrors + 1 } }.raise .linkError .empty)) ∧
       (s.link.occupancy < 4 →
         (requestLength kind = none → exec (Instr.ofFrame kind tag payload) s = .next (s.replied kind tag (.bare .unknown))) ∧
         (∀ n, requestLength kind = some n → payload.length ≠ n → exec (Instr.ofFrame kind tag payload) s =
           .next (s.replied kind tag (.bare .length))) ∧
         (∀ f, requestLength kind = some payload.length → s.link.engine = .delivering f → kind ≠ 0x2A →
           exec (Instr.ofFrame kind tag payload) s = .next (s.replied kind tag (.bare .busy))) ∧
         (∀ r, requestLength kind = some payload.length → s.link.engine = .executing r → exec (Instr.ofFrame kind tag payload) s =
           .next (s.replied kind tag (.bare (if kind = 0x2A then .state else .busy))))))) ∧
  (∀ (s : State) (kind tag : Byte) (payload : List Byte), s.resetHold.held = false → s.link.up = true → s.link.framer ≠ .ignoring →
     s.link.occupancy < 4 → payload.length ≤ 1024 → requestLength kind = none →
     exec (.unknownKind kind tag payload) s = .next (s.replied kind tag (.bare .unknown)))

/-- SET NOTICES replaces the eight enabled flags and answers with the eight pending flags, the sources keeping what they collected (R189); RESTART queues its OK
result and the framer ignores what follows (R191). -/
def Obligations.NoticesAreEnabledAndRestartAsked : Prop :=
  ∀ (s : State) (b tag : Byte),
    (s.Admits 0x30 [b] → ∃ t : State, exec (.setNotices tag [b]) s = .next (t.replied 0x30 tag (.ok [t.notices.pendingSet])) ∧
      t = { s with notices := t.notices } ∧
      (∀ id, t.notices.get id = { s.notices.get id with enabled := b.getLsbD ((NoticeId.code id).toNat - 1) }) ∧
      (∀ id, t.notices.pendingSet.getLsbD ((NoticeId.code id).toNat - 1) = (s.notices.get id).pending)) ∧
    (s.Admits 0x32 [] → exec (.restart tag []) s = .next { s with link := { s.link with
      framer := .ignoring, queued := s.link.queued ++ [{ tag := tag, kind := 0x32, code := .ok, fields := [] }] } })

/-- A damaged inbound frame (R177, R178): one whose CRC does not match, and one whose length is above 1,024, is discarded as one link error: the link error count
increments, LINK_ERROR is raised, the framer hunts again, and nothing else changes. -/
def Obligations.DamagedFrameIsALinkError : Prop :=
  ∀ (s : State) (kind tag c d : Byte) (payload : List Byte), s.resetHold.held = false → s.link.up = true → s.link.framer = .hunting →
    (payload.length ≤ 1024 → [c, d] ≠ leBytes 2 (crc16 (frameBody kind tag payload)).toNat →
      exec (.inboundFrameDiscard (startByte :: frameBody kind tag payload ++ [c, d])) s =
        .next ({ s with link := { s.link with linkErrors := s.link.linkErrors + 1 } }.raise .linkError .empty)) ∧
    (1024 < c.toNat + 256 * d.toNat → exec (.inboundFrameDiscard [startByte, kind, tag, c, d]) s =
      .next ({ s with link := { s.link with linkErrors := s.link.linkErrors + 1 } }.raise .linkError .empty))

/-- The bytes of a whole frame, taken one by one by the hunting framer (R177 to R182, R185). A request other than FETCH and HALT that finds room, the right length and
the engine IDLE takes the engine to EXECUTING and does nothing else; any other frame acts as its command does. A request in EXECUTING is carried out, and the engine is
IDLE again: it acts as its command does in IDLE, and its one result is queued; where the link has gone DOWN since, it acts as its command does while the link is DOWN
(log 6), and its result is discarded, in whatever state the link is by then. That this comes at the step that finds no command waiting, and that a request command is
carried out in the step of its arrival, are the model's choices (log 5). -/
def Obligations.WireFrameIsItsCommand : Prop :=
  (∀ (s : State) (kind tag : Byte) (payload : List Byte), s.resetHold.held = false → s.link.up = true → s.link.framer = .hunting →
     payload.length ≤ 1024 →
     (s.link.engine = .idle → s.link.occupancy < 4 → requestLength kind = some payload.length → kind ≠ 0x29 → kind ≠ 0x2A →
       exec (.inboundFrameDiscard (wireFrame kind tag payload)) s = .next { s.arrived with link := { s.arrived.link with
         engine := .executing { kind := kind, tag := tag, payload := payload, lost := false } } }) ∧
     (s.link.engine ≠ .idle ∨ 4 ≤ s.link.occupancy ∨ requestLength kind ≠ some payload.length ∨ kind = 0x29 ∨ kind = 0x2A →
       exec (.inboundFrameDiscard (wireFrame kind tag payload)) s = exec (Instr.ofFrame kind tag payload) s)) ∧
  (∀ (s : State) (r : Request), s.pending = [] → s.resetHold.held = false → s.link.engine = .executing r → r.Owned →
     (r.lost = false → s.link.up = true → s.link.owed = 1 → s.link.queued.length < 4 →
       (s.link.framer = .hunting → step s =
         exec (Instr.ofFrame r.kind r.tag r.payload) { s with link := { s.link with engine := .idle, owed := 0 } }) ∧
       ∃ t q, step s = .next t ∧ t.link.engine = .idle ∧ t.link.owed = 0 ∧ t.link.queued = s.link.queued ++ [q] ∧ q.kind = r.kind ∧ q.tag = r.tag) ∧
     (r.lost = true →
       (s.link.framer = .hunting → s.link.occupancy < 4 →
         ∃ t, exec (Instr.ofFrame r.kind r.tag r.payload) { s with link := { s.link with engine := .idle, up := false } } = .next t ∧
           step s = .next { t with link := { t.link with up := s.link.up } }) ∧
       ∃ t, step s = .next t ∧ t.link.engine = .idle ∧ t.link.owed = s.link.owed ∧ t.link.queued = s.link.queued ∧ t.link.up = s.link.up))

/-- Every well-formed command that is a complete inbound frame is the command its frame stands for (R179, R198). -/
def Obligations.FrameRoundTrips : Prop :=
  ∀ (i : Instr) (kind tag : Byte) (payload : List Byte), i.WellFormed = true → i.toFrame = some (kind, tag, payload) →
    Instr.ofFrame kind tag payload = i

/-! ## Invariants -/

/-- Every step keeps the record queue sound (R159, R161 to R165). -/
def Obligations.StepKeepsQueueSound : Prop :=
  ∀ s t : State, s.queue.Sound → step s = .next t → t.queue.Sound

/-- Every step keeps the two relations of R59 between the counters of each feed. -/
def Obligations.StepKeepsCountersBalance : Prop :=
  ∀ s t : State, s.CountersBalance → step s = .next t → t.CountersBalance

/-- Every step keeps the line ports sound (R10, R15, R16, R20 to R23, R26, R28), and a first append noted while it waits (R31, the model's field of log 26). -/
def Obligations.StepKeepsLinesSound : Prop :=
  ∀ s t : State, s.LinesSound → step s = .next t → t.LinesSound

/-- Every step keeps the feeds sound (R47, R56, R92, R103). -/
def Obligations.StepKeepsFeedsSound : Prop :=
  ∀ s t : State, s.FeedsSound → step s = .next t → t.FeedsSound

/-- Every step keeps the time base, the monitors and the discipline unit sound (R119, R120, R126, R127, R147, R148, R153 to R155). -/
def Obligations.StepKeepsTimeSound : Prop :=
  ∀ s t : State, s.TimeSound → step s = .next t → t.TimeSound

/-- Every step keeps the link interface sound (R178, R180, R181, R183, R184, R185, R191, R193): among the rest, the request engine holds at most one request under
way, FETCH or another, and every result owed is that request's, or a HALT's taken by the running fetch. -/
def Obligations.StepKeepsLinkSound : Prop :=
  ∀ s t : State, s.LinkSound → step s = .next t → t.LinkSound

/-- The invariants hold at State.reset. -/
def Obligations.InvariantsHoldAtReset : Prop :=
  State.reset.queue.Sound ∧ State.reset.CountersBalance ∧ State.reset.LinesSound ∧ State.reset.FeedsSound ∧ State.reset.TimeSound ∧
    State.reset.LinkSound
end

