-- ==== Sys2Proof/Laws/State.lean ====
section
/-! SUPPORT. What each named update of State leaves as it was, field by field, true by rfl; and what the accessors read after an update. -/

namespace Sys2Proof.Machine

/-! State.setLine -/

@[simp] theorem State.setLine_pins (s : State) (i : LineId) (p : LinePort) : (s.setLine i p).pins = s.pins := rfl
@[simp] theorem State.setLine_resetHold (s : State) (i : LineId) (p : LinePort) : (s.setLine i p).resetHold = s.resetHold := rfl
@[simp] theorem State.setLine_classifier (s : State) (i : LineId) (p : LinePort) : (s.setLine i p).classifier = s.classifier := rfl
@[simp] theorem State.setLine_feeds (s : State) (i : LineId) (p : LinePort) : (s.setLine i p).feeds = s.feeds := rfl
@[simp] theorem State.setLine_time (s : State) (i : LineId) (p : LinePort) : (s.setLine i p).time = s.time := rfl
@[simp] theorem State.setLine_monitors (s : State) (i : LineId) (p : LinePort) : (s.setLine i p).monitors = s.monitors := rfl
@[simp] theorem State.setLine_discipline (s : State) (i : LineId) (p : LinePort) : (s.setLine i p).discipline = s.discipline := rfl
@[simp] theorem State.setLine_queue (s : State) (i : LineId) (p : LinePort) : (s.setLine i p).queue = s.queue := rfl
@[simp] theorem State.setLine_notices (s : State) (i : LineId) (p : LinePort) : (s.setLine i p).notices = s.notices := rfl
@[simp] theorem State.setLine_link (s : State) (i : LineId) (p : LinePort) : (s.setLine i p).link = s.link := rfl
@[simp] theorem State.setLine_pending (s : State) (i : LineId) (p : LinePort) : (s.setLine i p).pending = s.pending := rfl

/-! State.setFeed -/

@[simp] theorem State.setFeed_pins (s : State) (i : FeedId) (f : Feed) : (s.setFeed i f).pins = s.pins := rfl
@[simp] theorem State.setFeed_resetHold (s : State) (i : FeedId) (f : Feed) : (s.setFeed i f).resetHold = s.resetHold := rfl
@[simp] theorem State.setFeed_lines (s : State) (i : FeedId) (f : Feed) : (s.setFeed i f).lines = s.lines := rfl
@[simp] theorem State.setFeed_classifier (s : State) (i : FeedId) (f : Feed) : (s.setFeed i f).classifier = s.classifier := rfl
@[simp] theorem State.setFeed_time (s : State) (i : FeedId) (f : Feed) : (s.setFeed i f).time = s.time := rfl
@[simp] theorem State.setFeed_monitors (s : State) (i : FeedId) (f : Feed) : (s.setFeed i f).monitors = s.monitors := rfl
@[simp] theorem State.setFeed_discipline (s : State) (i : FeedId) (f : Feed) : (s.setFeed i f).discipline = s.discipline := rfl
@[simp] theorem State.setFeed_queue (s : State) (i : FeedId) (f : Feed) : (s.setFeed i f).queue = s.queue := rfl
@[simp] theorem State.setFeed_notices (s : State) (i : FeedId) (f : Feed) : (s.setFeed i f).notices = s.notices := rfl
@[simp] theorem State.setFeed_link (s : State) (i : FeedId) (f : Feed) : (s.setFeed i f).link = s.link := rfl
@[simp] theorem State.setFeed_pending (s : State) (i : FeedId) (f : Feed) : (s.setFeed i f).pending = s.pending := rfl

/-! State.onFeed -/

@[simp] theorem State.onFeed_pins (s : State) (i : FeedId) (g : Feed → Feed) : (s.onFeed i g).pins = s.pins := rfl
@[simp] theorem State.onFeed_resetHold (s : State) (i : FeedId) (g : Feed → Feed) : (s.onFeed i g).resetHold = s.resetHold := rfl
@[simp] theorem State.onFeed_lines (s : State) (i : FeedId) (g : Feed → Feed) : (s.onFeed i g).lines = s.lines := rfl
@[simp] theorem State.onFeed_classifier (s : State) (i : FeedId) (g : Feed → Feed) : (s.onFeed i g).classifier = s.classifier := rfl
@[simp] theorem State.onFeed_time (s : State) (i : FeedId) (g : Feed → Feed) : (s.onFeed i g).time = s.time := rfl
@[simp] theorem State.onFeed_monitors (s : State) (i : FeedId) (g : Feed → Feed) : (s.onFeed i g).monitors = s.monitors := rfl
@[simp] theorem State.onFeed_discipline (s : State) (i : FeedId) (g : Feed → Feed) : (s.onFeed i g).discipline = s.discipline := rfl
@[simp] theorem State.onFeed_queue (s : State) (i : FeedId) (g : Feed → Feed) : (s.onFeed i g).queue = s.queue := rfl
@[simp] theorem State.onFeed_notices (s : State) (i : FeedId) (g : Feed → Feed) : (s.onFeed i g).notices = s.notices := rfl
@[simp] theorem State.onFeed_link (s : State) (i : FeedId) (g : Feed → Feed) : (s.onFeed i g).link = s.link := rfl
@[simp] theorem State.onFeed_pending (s : State) (i : FeedId) (g : Feed → Feed) : (s.onFeed i g).pending = s.pending := rfl

/-! State.count -/

@[simp] theorem State.count_pins (s : State) (i : FeedId) (g : FeedCounters → FeedCounters) : (s.count i g).pins = s.pins := rfl
@[simp] theorem State.count_resetHold (s : State) (i : FeedId) (g : FeedCounters → FeedCounters) : (s.count i g).resetHold = s.resetHold := rfl
@[simp] theorem State.count_lines (s : State) (i : FeedId) (g : FeedCounters → FeedCounters) : (s.count i g).lines = s.lines := rfl
@[simp] theorem State.count_classifier (s : State) (i : FeedId) (g : FeedCounters → FeedCounters) : (s.count i g).classifier = s.classifier := rfl
@[simp] theorem State.count_time (s : State) (i : FeedId) (g : FeedCounters → FeedCounters) : (s.count i g).time = s.time := rfl
@[simp] theorem State.count_monitors (s : State) (i : FeedId) (g : FeedCounters → FeedCounters) : (s.count i g).monitors = s.monitors := rfl
@[simp] theorem State.count_discipline (s : State) (i : FeedId) (g : FeedCounters → FeedCounters) : (s.count i g).discipline = s.discipline := rfl
@[simp] theorem State.count_queue (s : State) (i : FeedId) (g : FeedCounters → FeedCounters) : (s.count i g).queue = s.queue := rfl
@[simp] theorem State.count_notices (s : State) (i : FeedId) (g : FeedCounters → FeedCounters) : (s.count i g).notices = s.notices := rfl
@[simp] theorem State.count_link (s : State) (i : FeedId) (g : FeedCounters → FeedCounters) : (s.count i g).link = s.link := rfl
@[simp] theorem State.count_pending (s : State) (i : FeedId) (g : FeedCounters → FeedCounters) : (s.count i g).pending = s.pending := rfl

/-! State.setHold -/

@[simp] theorem State.setHold_pins (s : State) (i : FeedId) (hold : List HeldRecord) : (s.setHold i hold).pins = s.pins := rfl
@[simp] theorem State.setHold_resetHold (s : State) (i : FeedId) (hold : List HeldRecord) : (s.setHold i hold).resetHold = s.resetHold := rfl
@[simp] theorem State.setHold_lines (s : State) (i : FeedId) (hold : List HeldRecord) : (s.setHold i hold).lines = s.lines := rfl
@[simp] theorem State.setHold_classifier (s : State) (i : FeedId) (hold : List HeldRecord) : (s.setHold i hold).classifier = s.classifier := rfl
@[simp] theorem State.setHold_time (s : State) (i : FeedId) (hold : List HeldRecord) : (s.setHold i hold).time = s.time := rfl
@[simp] theorem State.setHold_monitors (s : State) (i : FeedId) (hold : List HeldRecord) : (s.setHold i hold).monitors = s.monitors := rfl
@[simp] theorem State.setHold_discipline (s : State) (i : FeedId) (hold : List HeldRecord) : (s.setHold i hold).discipline = s.discipline := rfl
@[simp] theorem State.setHold_queue (s : State) (i : FeedId) (hold : List HeldRecord) : (s.setHold i hold).queue = s.queue := rfl
@[simp] theorem State.setHold_notices (s : State) (i : FeedId) (hold : List HeldRecord) : (s.setHold i hold).notices = s.notices := rfl
@[simp] theorem State.setHold_link (s : State) (i : FeedId) (hold : List HeldRecord) : (s.setHold i hold).link = s.link := rfl
@[simp] theorem State.setHold_pending (s : State) (i : FeedId) (hold : List HeldRecord) : (s.setHold i hold).pending = s.pending := rfl

/-! State.setGaps -/

@[simp] theorem State.setGaps_pins (s : State) (i : FeedId) (gaps : List GapRange) : (s.setGaps i gaps).pins = s.pins := rfl
@[simp] theorem State.setGaps_resetHold (s : State) (i : FeedId) (gaps : List GapRange) : (s.setGaps i gaps).resetHold = s.resetHold := rfl
@[simp] theorem State.setGaps_lines (s : State) (i : FeedId) (gaps : List GapRange) : (s.setGaps i gaps).lines = s.lines := rfl
@[simp] theorem State.setGaps_classifier (s : State) (i : FeedId) (gaps : List GapRange) : (s.setGaps i gaps).classifier = s.classifier := rfl
@[simp] theorem State.setGaps_time (s : State) (i : FeedId) (gaps : List GapRange) : (s.setGaps i gaps).time = s.time := rfl
@[simp] theorem State.setGaps_monitors (s : State) (i : FeedId) (gaps : List GapRange) : (s.setGaps i gaps).monitors = s.monitors := rfl
@[simp] theorem State.setGaps_discipline (s : State) (i : FeedId) (gaps : List GapRange) : (s.setGaps i gaps).discipline = s.discipline := rfl
@[simp] theorem State.setGaps_queue (s : State) (i : FeedId) (gaps : List GapRange) : (s.setGaps i gaps).queue = s.queue := rfl
@[simp] theorem State.setGaps_notices (s : State) (i : FeedId) (gaps : List GapRange) : (s.setGaps i gaps).notices = s.notices := rfl
@[simp] theorem State.setGaps_link (s : State) (i : FeedId) (gaps : List GapRange) : (s.setGaps i gaps).link = s.link := rfl
@[simp] theorem State.setGaps_pending (s : State) (i : FeedId) (gaps : List GapRange) : (s.setGaps i gaps).pending = s.pending := rfl

/-! State.setCandidate -/

@[simp] theorem State.setCandidate_pins (s : State) (i : FeedId) (c : Option HeldRecord) : (s.setCandidate i c).pins = s.pins := rfl
@[simp] theorem State.setCandidate_resetHold (s : State) (i : FeedId) (c : Option HeldRecord) : (s.setCandidate i c).resetHold = s.resetHold := rfl
@[simp] theorem State.setCandidate_lines (s : State) (i : FeedId) (c : Option HeldRecord) : (s.setCandidate i c).lines = s.lines := rfl
@[simp] theorem State.setCandidate_classifier (s : State) (i : FeedId) (c : Option HeldRecord) : (s.setCandidate i c).classifier = s.classifier := rfl
@[simp] theorem State.setCandidate_time (s : State) (i : FeedId) (c : Option HeldRecord) : (s.setCandidate i c).time = s.time := rfl
@[simp] theorem State.setCandidate_monitors (s : State) (i : FeedId) (c : Option HeldRecord) : (s.setCandidate i c).monitors = s.monitors := rfl
@[simp] theorem State.setCandidate_discipline (s : State) (i : FeedId) (c : Option HeldRecord) : (s.setCandidate i c).discipline = s.discipline := rfl
@[simp] theorem State.setCandidate_queue (s : State) (i : FeedId) (c : Option HeldRecord) : (s.setCandidate i c).queue = s.queue := rfl
@[simp] theorem State.setCandidate_notices (s : State) (i : FeedId) (c : Option HeldRecord) : (s.setCandidate i c).notices = s.notices := rfl
@[simp] theorem State.setCandidate_link (s : State) (i : FeedId) (c : Option HeldRecord) : (s.setCandidate i c).link = s.link := rfl
@[simp] theorem State.setCandidate_pending (s : State) (i : FeedId) (c : Option HeldRecord) : (s.setCandidate i c).pending = s.pending := rfl

/-! State.setFeedState -/

@[simp] theorem State.setFeedState_pins (s : State) (i : FeedId) (st : FeedState) : (s.setFeedState i st).pins = s.pins := rfl
@[simp] theorem State.setFeedState_resetHold (s : State) (i : FeedId) (st : FeedState) : (s.setFeedState i st).resetHold = s.resetHold := rfl
@[simp] theorem State.setFeedState_lines (s : State) (i : FeedId) (st : FeedState) : (s.setFeedState i st).lines = s.lines := rfl
@[simp] theorem State.setFeedState_classifier (s : State) (i : FeedId) (st : FeedState) : (s.setFeedState i st).classifier = s.classifier := rfl
@[simp] theorem State.setFeedState_time (s : State) (i : FeedId) (st : FeedState) : (s.setFeedState i st).time = s.time := rfl
@[simp] theorem State.setFeedState_monitors (s : State) (i : FeedId) (st : FeedState) : (s.setFeedState i st).monitors = s.monitors := rfl
@[simp] theorem State.setFeedState_discipline (s : State) (i : FeedId) (st : FeedState) : (s.setFeedState i st).discipline = s.discipline := rfl
@[simp] theorem State.setFeedState_queue (s : State) (i : FeedId) (st : FeedState) : (s.setFeedState i st).queue = s.queue := rfl
@[simp] theorem State.setFeedState_notices (s : State) (i : FeedId) (st : FeedState) : (s.setFeedState i st).notices = s.notices := rfl
@[simp] theorem State.setFeedState_link (s : State) (i : FeedId) (st : FeedState) : (s.setFeedState i st).link = s.link := rfl
@[simp] theorem State.setFeedState_pending (s : State) (i : FeedId) (st : FeedState) : (s.setFeedState i st).pending = s.pending := rfl

/-! State.setMonitor -/

@[simp] theorem State.setMonitor_pins (s : State) (r : RefId) (x : Monitor) : (s.setMonitor r x).pins = s.pins := rfl
@[simp] theorem State.setMonitor_resetHold (s : State) (r : RefId) (x : Monitor) : (s.setMonitor r x).resetHold = s.resetHold := rfl
@[simp] theorem State.setMonitor_lines (s : State) (r : RefId) (x : Monitor) : (s.setMonitor r x).lines = s.lines := rfl
@[simp] theorem State.setMonitor_classifier (s : State) (r : RefId) (x : Monitor) : (s.setMonitor r x).classifier = s.classifier := rfl
@[simp] theorem State.setMonitor_feeds (s : State) (r : RefId) (x : Monitor) : (s.setMonitor r x).feeds = s.feeds := rfl
@[simp] theorem State.setMonitor_time (s : State) (r : RefId) (x : Monitor) : (s.setMonitor r x).time = s.time := rfl
@[simp] theorem State.setMonitor_discipline (s : State) (r : RefId) (x : Monitor) : (s.setMonitor r x).discipline = s.discipline := rfl
@[simp] theorem State.setMonitor_queue (s : State) (r : RefId) (x : Monitor) : (s.setMonitor r x).queue = s.queue := rfl
@[simp] theorem State.setMonitor_notices (s : State) (r : RefId) (x : Monitor) : (s.setMonitor r x).notices = s.notices := rfl
@[simp] theorem State.setMonitor_link (s : State) (r : RefId) (x : Monitor) : (s.setMonitor r x).link = s.link := rfl
@[simp] theorem State.setMonitor_pending (s : State) (r : RefId) (x : Monitor) : (s.setMonitor r x).pending = s.pending := rfl

/-! State.setWatch -/

@[simp] theorem State.setWatch_pins (s : State) (r : RefId) (w : Watch) : (s.setWatch r w).pins = s.pins := rfl
@[simp] theorem State.setWatch_resetHold (s : State) (r : RefId) (w : Watch) : (s.setWatch r w).resetHold = s.resetHold := rfl
@[simp] theorem State.setWatch_lines (s : State) (r : RefId) (w : Watch) : (s.setWatch r w).lines = s.lines := rfl
@[simp] theorem State.setWatch_classifier (s : State) (r : RefId) (w : Watch) : (s.setWatch r w).classifier = s.classifier := rfl
@[simp] theorem State.setWatch_feeds (s : State) (r : RefId) (w : Watch) : (s.setWatch r w).feeds = s.feeds := rfl
@[simp] theorem State.setWatch_time (s : State) (r : RefId) (w : Watch) : (s.setWatch r w).time = s.time := rfl
@[simp] theorem State.setWatch_discipline (s : State) (r : RefId) (w : Watch) : (s.setWatch r w).discipline = s.discipline := rfl
@[simp] theorem State.setWatch_queue (s : State) (r : RefId) (w : Watch) : (s.setWatch r w).queue = s.queue := rfl
@[simp] theorem State.setWatch_notices (s : State) (r : RefId) (w : Watch) : (s.setWatch r w).notices = s.notices := rfl
@[simp] theorem State.setWatch_link (s : State) (r : RefId) (w : Watch) : (s.setWatch r w).link = s.link := rfl
@[simp] theorem State.setWatch_pending (s : State) (r : RefId) (w : Watch) : (s.setWatch r w).pending = s.pending := rfl

/-! State.raise -/

@[simp] theorem State.raise_pins (s : State) (id : NoticeId) (x : Summary) : (s.raise id x).pins = s.pins := rfl
@[simp] theorem State.raise_resetHold (s : State) (id : NoticeId) (x : Summary) : (s.raise id x).resetHold = s.resetHold := rfl
@[simp] theorem State.raise_lines (s : State) (id : NoticeId) (x : Summary) : (s.raise id x).lines = s.lines := rfl
@[simp] theorem State.raise_classifier (s : State) (id : NoticeId) (x : Summary) : (s.raise id x).classifier = s.classifier := rfl
@[simp] theorem State.raise_feeds (s : State) (id : NoticeId) (x : Summary) : (s.raise id x).feeds = s.feeds := rfl
@[simp] theorem State.raise_time (s : State) (id : NoticeId) (x : Summary) : (s.raise id x).time = s.time := rfl
@[simp] theorem State.raise_monitors (s : State) (id : NoticeId) (x : Summary) : (s.raise id x).monitors = s.monitors := rfl
@[simp] theorem State.raise_discipline (s : State) (id : NoticeId) (x : Summary) : (s.raise id x).discipline = s.discipline := rfl
@[simp] theorem State.raise_queue (s : State) (id : NoticeId) (x : Summary) : (s.raise id x).queue = s.queue := rfl
@[simp] theorem State.raise_link (s : State) (id : NoticeId) (x : Summary) : (s.raise id x).link = s.link := rfl
@[simp] theorem State.raise_pending (s : State) (id : NoticeId) (x : Summary) : (s.raise id x).pending = s.pending := rfl

/-! State.offer -/

@[simp] theorem State.offer_pins (s : State) (r : Record) : (s.offer r).pins = s.pins := rfl
@[simp] theorem State.offer_resetHold (s : State) (r : Record) : (s.offer r).resetHold = s.resetHold := rfl
@[simp] theorem State.offer_lines (s : State) (r : Record) : (s.offer r).lines = s.lines := rfl
@[simp] theorem State.offer_classifier (s : State) (r : Record) : (s.offer r).classifier = s.classifier := rfl
@[simp] theorem State.offer_feeds (s : State) (r : Record) : (s.offer r).feeds = s.feeds := rfl
@[simp] theorem State.offer_time (s : State) (r : Record) : (s.offer r).time = s.time := rfl
@[simp] theorem State.offer_monitors (s : State) (r : Record) : (s.offer r).monitors = s.monitors := rfl
@[simp] theorem State.offer_discipline (s : State) (r : Record) : (s.offer r).discipline = s.discipline := rfl
@[simp] theorem State.offer_link (s : State) (r : Record) : (s.offer r).link = s.link := rfl
@[simp] theorem State.offer_pending (s : State) (r : Record) : (s.offer r).pending = s.pending := rfl

/-! State.offerNow -/

@[simp] theorem State.offerNow_pins (s : State) (b : RecordBody) : (s.offerNow b).pins = s.pins := rfl
@[simp] theorem State.offerNow_resetHold (s : State) (b : RecordBody) : (s.offerNow b).resetHold = s.resetHold := rfl
@[simp] theorem State.offerNow_lines (s : State) (b : RecordBody) : (s.offerNow b).lines = s.lines := rfl
@[simp] theorem State.offerNow_classifier (s : State) (b : RecordBody) : (s.offerNow b).classifier = s.classifier := rfl
@[simp] theorem State.offerNow_feeds (s : State) (b : RecordBody) : (s.offerNow b).feeds = s.feeds := rfl
@[simp] theorem State.offerNow_time (s : State) (b : RecordBody) : (s.offerNow b).time = s.time := rfl
@[simp] theorem State.offerNow_monitors (s : State) (b : RecordBody) : (s.offerNow b).monitors = s.monitors := rfl
@[simp] theorem State.offerNow_discipline (s : State) (b : RecordBody) : (s.offerNow b).discipline = s.discipline := rfl
@[simp] theorem State.offerNow_link (s : State) (b : RecordBody) : (s.offerNow b).link = s.link := rfl
@[simp] theorem State.offerNow_pending (s : State) (b : RecordBody) : (s.offerNow b).pending = s.pending := rfl

/-! State.setEngine -/

@[simp] theorem State.setEngine_pins (s : State) (e : Engine) : (s.setEngine e).pins = s.pins := rfl
@[simp] theorem State.setEngine_resetHold (s : State) (e : Engine) : (s.setEngine e).resetHold = s.resetHold := rfl
@[simp] theorem State.setEngine_lines (s : State) (e : Engine) : (s.setEngine e).lines = s.lines := rfl
@[simp] theorem State.setEngine_classifier (s : State) (e : Engine) : (s.setEngine e).classifier = s.classifier := rfl
@[simp] theorem State.setEngine_feeds (s : State) (e : Engine) : (s.setEngine e).feeds = s.feeds := rfl
@[simp] theorem State.setEngine_time (s : State) (e : Engine) : (s.setEngine e).time = s.time := rfl
@[simp] theorem State.setEngine_monitors (s : State) (e : Engine) : (s.setEngine e).monitors = s.monitors := rfl
@[simp] theorem State.setEngine_discipline (s : State) (e : Engine) : (s.setEngine e).discipline = s.discipline := rfl
@[simp] theorem State.setEngine_queue (s : State) (e : Engine) : (s.setEngine e).queue = s.queue := rfl
@[simp] theorem State.setEngine_notices (s : State) (e : Engine) : (s.setEngine e).notices = s.notices := rfl
@[simp] theorem State.setEngine_pending (s : State) (e : Engine) : (s.setEngine e).pending = s.pending := rfl

/-! State.setFramer -/

@[simp] theorem State.setFramer_pins (s : State) (f : Framer) : (s.setFramer f).pins = s.pins := rfl
@[simp] theorem State.setFramer_resetHold (s : State) (f : Framer) : (s.setFramer f).resetHold = s.resetHold := rfl
@[simp] theorem State.setFramer_lines (s : State) (f : Framer) : (s.setFramer f).lines = s.lines := rfl
@[simp] theorem State.setFramer_classifier (s : State) (f : Framer) : (s.setFramer f).classifier = s.classifier := rfl
@[simp] theorem State.setFramer_feeds (s : State) (f : Framer) : (s.setFramer f).feeds = s.feeds := rfl
@[simp] theorem State.setFramer_time (s : State) (f : Framer) : (s.setFramer f).time = s.time := rfl
@[simp] theorem State.setFramer_monitors (s : State) (f : Framer) : (s.setFramer f).monitors = s.monitors := rfl
@[simp] theorem State.setFramer_discipline (s : State) (f : Framer) : (s.setFramer f).discipline = s.discipline := rfl
@[simp] theorem State.setFramer_queue (s : State) (f : Framer) : (s.setFramer f).queue = s.queue := rfl
@[simp] theorem State.setFramer_notices (s : State) (f : Framer) : (s.setFramer f).notices = s.notices := rfl
@[simp] theorem State.setFramer_pending (s : State) (f : Framer) : (s.setFramer f).pending = s.pending := rfl

/-! State.freeLane -/

@[simp] theorem State.freeLane_pins (s : State) : (s.freeLane).pins = s.pins := rfl
@[simp] theorem State.freeLane_resetHold (s : State) : (s.freeLane).resetHold = s.resetHold := rfl
@[simp] theorem State.freeLane_lines (s : State) : (s.freeLane).lines = s.lines := rfl
@[simp] theorem State.freeLane_classifier (s : State) : (s.freeLane).classifier = s.classifier := rfl
@[simp] theorem State.freeLane_feeds (s : State) : (s.freeLane).feeds = s.feeds := rfl
@[simp] theorem State.freeLane_time (s : State) : (s.freeLane).time = s.time := rfl
@[simp] theorem State.freeLane_monitors (s : State) : (s.freeLane).monitors = s.monitors := rfl
@[simp] theorem State.freeLane_discipline (s : State) : (s.freeLane).discipline = s.discipline := rfl
@[simp] theorem State.freeLane_queue (s : State) : (s.freeLane).queue = s.queue := rfl
@[simp] theorem State.freeLane_notices (s : State) : (s.freeLane).notices = s.notices := rfl
@[simp] theorem State.freeLane_pending (s : State) : (s.freeLane).pending = s.pending := rfl

/-! State.freeClassifier -/

@[simp] theorem State.freeClassifier_pins (s : State) : (s.freeClassifier).pins = s.pins := rfl
@[simp] theorem State.freeClassifier_resetHold (s : State) : (s.freeClassifier).resetHold = s.resetHold := rfl
@[simp] theorem State.freeClassifier_lines (s : State) : (s.freeClassifier).lines = s.lines := rfl
@[simp] theorem State.freeClassifier_feeds (s : State) : (s.freeClassifier).feeds = s.feeds := rfl
@[simp] theorem State.freeClassifier_time (s : State) : (s.freeClassifier).time = s.time := rfl
@[simp] theorem State.freeClassifier_monitors (s : State) : (s.freeClassifier).monitors = s.monitors := rfl
@[simp] theorem State.freeClassifier_discipline (s : State) : (s.freeClassifier).discipline = s.discipline := rfl
@[simp] theorem State.freeClassifier_queue (s : State) : (s.freeClassifier).queue = s.queue := rfl
@[simp] theorem State.freeClassifier_notices (s : State) : (s.freeClassifier).notices = s.notices := rfl
@[simp] theorem State.freeClassifier_link (s : State) : (s.freeClassifier).link = s.link := rfl
@[simp] theorem State.freeClassifier_pending (s : State) : (s.freeClassifier).pending = s.pending := rfl

/-! State.countShort -/

@[simp] theorem State.countShort_pins (s : State) (i : LineId) : (s.countShort i).pins = s.pins := rfl
@[simp] theorem State.countShort_resetHold (s : State) (i : LineId) : (s.countShort i).resetHold = s.resetHold := rfl
@[simp] theorem State.countShort_lines (s : State) (i : LineId) : (s.countShort i).lines = s.lines := rfl
@[simp] theorem State.countShort_feeds (s : State) (i : LineId) : (s.countShort i).feeds = s.feeds := rfl
@[simp] theorem State.countShort_time (s : State) (i : LineId) : (s.countShort i).time = s.time := rfl
@[simp] theorem State.countShort_monitors (s : State) (i : LineId) : (s.countShort i).monitors = s.monitors := rfl
@[simp] theorem State.countShort_discipline (s : State) (i : LineId) : (s.countShort i).discipline = s.discipline := rfl
@[simp] theorem State.countShort_queue (s : State) (i : LineId) : (s.countShort i).queue = s.queue := rfl
@[simp] theorem State.countShort_notices (s : State) (i : LineId) : (s.countShort i).notices = s.notices := rfl
@[simp] theorem State.countShort_link (s : State) (i : LineId) : (s.countShort i).link = s.link := rfl
@[simp] theorem State.countShort_pending (s : State) (i : LineId) : (s.countShort i).pending = s.pending := rfl

/-! State.setSelector -/

@[simp] theorem State.setSelector_pins (s : State) (i : Fin 32) (e : Selector) : (s.setSelector i e).pins = s.pins := rfl
@[simp] theorem State.setSelector_resetHold (s : State) (i : Fin 32) (e : Selector) : (s.setSelector i e).resetHold = s.resetHold := rfl
@[simp] theorem State.setSelector_lines (s : State) (i : Fin 32) (e : Selector) : (s.setSelector i e).lines = s.lines := rfl
@[simp] theorem State.setSelector_feeds (s : State) (i : Fin 32) (e : Selector) : (s.setSelector i e).feeds = s.feeds := rfl
@[simp] theorem State.setSelector_time (s : State) (i : Fin 32) (e : Selector) : (s.setSelector i e).time = s.time := rfl
@[simp] theorem State.setSelector_monitors (s : State) (i : Fin 32) (e : Selector) : (s.setSelector i e).monitors = s.monitors := rfl
@[simp] theorem State.setSelector_discipline (s : State) (i : Fin 32) (e : Selector) : (s.setSelector i e).discipline = s.discipline := rfl
@[simp] theorem State.setSelector_queue (s : State) (i : Fin 32) (e : Selector) : (s.setSelector i e).queue = s.queue := rfl
@[simp] theorem State.setSelector_notices (s : State) (i : Fin 32) (e : Selector) : (s.setSelector i e).notices = s.notices := rfl
@[simp] theorem State.setSelector_link (s : State) (i : Fin 32) (e : Selector) : (s.setSelector i e).link = s.link := rfl
@[simp] theorem State.setSelector_pending (s : State) (i : Fin 32) (e : Selector) : (s.setSelector i e).pending = s.pending := rfl

/-! State.setSd -/

@[simp] theorem State.setSd_resetHold (s : State) (i : LineId) (b : Bool) : (s.setSd i b).resetHold = s.resetHold := rfl
@[simp] theorem State.setSd_lines (s : State) (i : LineId) (b : Bool) : (s.setSd i b).lines = s.lines := rfl
@[simp] theorem State.setSd_classifier (s : State) (i : LineId) (b : Bool) : (s.setSd i b).classifier = s.classifier := rfl
@[simp] theorem State.setSd_feeds (s : State) (i : LineId) (b : Bool) : (s.setSd i b).feeds = s.feeds := rfl
@[simp] theorem State.setSd_time (s : State) (i : LineId) (b : Bool) : (s.setSd i b).time = s.time := rfl
@[simp] theorem State.setSd_monitors (s : State) (i : LineId) (b : Bool) : (s.setSd i b).monitors = s.monitors := rfl
@[simp] theorem State.setSd_discipline (s : State) (i : LineId) (b : Bool) : (s.setSd i b).discipline = s.discipline := rfl
@[simp] theorem State.setSd_queue (s : State) (i : LineId) (b : Bool) : (s.setSd i b).queue = s.queue := rfl
@[simp] theorem State.setSd_notices (s : State) (i : LineId) (b : Bool) : (s.setSd i b).notices = s.notices := rfl
@[simp] theorem State.setSd_link (s : State) (i : LineId) (b : Bool) : (s.setSd i b).link = s.link := rfl
@[simp] theorem State.setSd_pending (s : State) (i : LineId) (b : Bool) : (s.setSd i b).pending = s.pending := rfl

/-! State.setLinkSd -/

@[simp] theorem State.setLinkSd_resetHold (s : State) (b : Bool) : (s.setLinkSd b).resetHold = s.resetHold := rfl
@[simp] theorem State.setLinkSd_lines (s : State) (b : Bool) : (s.setLinkSd b).lines = s.lines := rfl
@[simp] theorem State.setLinkSd_classifier (s : State) (b : Bool) : (s.setLinkSd b).classifier = s.classifier := rfl
@[simp] theorem State.setLinkSd_feeds (s : State) (b : Bool) : (s.setLinkSd b).feeds = s.feeds := rfl
@[simp] theorem State.setLinkSd_time (s : State) (b : Bool) : (s.setLinkSd b).time = s.time := rfl
@[simp] theorem State.setLinkSd_monitors (s : State) (b : Bool) : (s.setLinkSd b).monitors = s.monitors := rfl
@[simp] theorem State.setLinkSd_discipline (s : State) (b : Bool) : (s.setLinkSd b).discipline = s.discipline := rfl
@[simp] theorem State.setLinkSd_queue (s : State) (b : Bool) : (s.setLinkSd b).queue = s.queue := rfl
@[simp] theorem State.setLinkSd_notices (s : State) (b : Bool) : (s.setLinkSd b).notices = s.notices := rfl
@[simp] theorem State.setLinkSd_link (s : State) (b : Bool) : (s.setLinkSd b).link = s.link := rfl
@[simp] theorem State.setLinkSd_pending (s : State) (b : Bool) : (s.setLinkSd b).pending = s.pending := rfl

/-! State.setUp -/

@[simp] theorem State.setUp_pins (s : State) (up : Bool) : (s.setUp up).pins = s.pins := rfl
@[simp] theorem State.setUp_resetHold (s : State) (up : Bool) : (s.setUp up).resetHold = s.resetHold := rfl
@[simp] theorem State.setUp_lines (s : State) (up : Bool) : (s.setUp up).lines = s.lines := rfl
@[simp] theorem State.setUp_classifier (s : State) (up : Bool) : (s.setUp up).classifier = s.classifier := rfl
@[simp] theorem State.setUp_feeds (s : State) (up : Bool) : (s.setUp up).feeds = s.feeds := rfl
@[simp] theorem State.setUp_time (s : State) (up : Bool) : (s.setUp up).time = s.time := rfl
@[simp] theorem State.setUp_monitors (s : State) (up : Bool) : (s.setUp up).monitors = s.monitors := rfl
@[simp] theorem State.setUp_discipline (s : State) (up : Bool) : (s.setUp up).discipline = s.discipline := rfl
@[simp] theorem State.setUp_queue (s : State) (up : Bool) : (s.setUp up).queue = s.queue := rfl
@[simp] theorem State.setUp_notices (s : State) (up : Bool) : (s.setUp up).notices = s.notices := rfl
@[simp] theorem State.setUp_pending (s : State) (up : Bool) : (s.setUp up).pending = s.pending := rfl

/-! State.startSlew -/

@[simp] theorem State.startSlew_pins (s : State) (a : Int) (r : Nat) : (s.startSlew a r).pins = s.pins := rfl
@[simp] theorem State.startSlew_resetHold (s : State) (a : Int) (r : Nat) : (s.startSlew a r).resetHold = s.resetHold := rfl
@[simp] theorem State.startSlew_lines (s : State) (a : Int) (r : Nat) : (s.startSlew a r).lines = s.lines := rfl
@[simp] theorem State.startSlew_classifier (s : State) (a : Int) (r : Nat) : (s.startSlew a r).classifier = s.classifier := rfl
@[simp] theorem State.startSlew_feeds (s : State) (a : Int) (r : Nat) : (s.startSlew a r).feeds = s.feeds := rfl
@[simp] theorem State.startSlew_monitors (s : State) (a : Int) (r : Nat) : (s.startSlew a r).monitors = s.monitors := rfl
@[simp] theorem State.startSlew_discipline (s : State) (a : Int) (r : Nat) : (s.startSlew a r).discipline = s.discipline := rfl
@[simp] theorem State.startSlew_queue (s : State) (a : Int) (r : Nat) : (s.startSlew a r).queue = s.queue := rfl
@[simp] theorem State.startSlew_notices (s : State) (a : Int) (r : Nat) : (s.startSlew a r).notices = s.notices := rfl
@[simp] theorem State.startSlew_link (s : State) (a : Int) (r : Nat) : (s.startSlew a r).link = s.link := rfl
@[simp] theorem State.startSlew_pending (s : State) (a : Int) (r : Nat) : (s.startSlew a r).pending = s.pending := rfl

/-! State.beginOut -/

@[simp] theorem State.beginOut_pins (s : State) (k : OutKind) (fk tag : Byte) (payload : List Byte) : (s.beginOut k fk tag payload).pins = s.pins := rfl
@[simp] theorem State.beginOut_resetHold (s : State) (k : OutKind) (fk tag : Byte) (payload : List Byte) : (s.beginOut k fk tag payload).resetHold = s.resetHold := rfl
@[simp] theorem State.beginOut_lines (s : State) (k : OutKind) (fk tag : Byte) (payload : List Byte) : (s.beginOut k fk tag payload).lines = s.lines := rfl
@[simp] theorem State.beginOut_classifier (s : State) (k : OutKind) (fk tag : Byte) (payload : List Byte) : (s.beginOut k fk tag payload).classifier = s.classifier := rfl
@[simp] theorem State.beginOut_feeds (s : State) (k : OutKind) (fk tag : Byte) (payload : List Byte) : (s.beginOut k fk tag payload).feeds = s.feeds := rfl
@[simp] theorem State.beginOut_time (s : State) (k : OutKind) (fk tag : Byte) (payload : List Byte) : (s.beginOut k fk tag payload).time = s.time := rfl
@[simp] theorem State.beginOut_monitors (s : State) (k : OutKind) (fk tag : Byte) (payload : List Byte) : (s.beginOut k fk tag payload).monitors = s.monitors := rfl
@[simp] theorem State.beginOut_discipline (s : State) (k : OutKind) (fk tag : Byte) (payload : List Byte) : (s.beginOut k fk tag payload).discipline = s.discipline := rfl
@[simp] theorem State.beginOut_queue (s : State) (k : OutKind) (fk tag : Byte) (payload : List Byte) : (s.beginOut k fk tag payload).queue = s.queue := rfl
@[simp] theorem State.beginOut_notices (s : State) (k : OutKind) (fk tag : Byte) (payload : List Byte) : (s.beginOut k fk tag payload).notices = s.notices := rfl
@[simp] theorem State.beginOut_pending (s : State) (k : OutKind) (fk tag : Byte) (payload : List Byte) : (s.beginOut k fk tag payload).pending = s.pending := rfl

/-! State.arrived -/

@[simp] theorem State.arrived_pins (s : State) : (s.arrived).pins = s.pins := rfl
@[simp] theorem State.arrived_resetHold (s : State) : (s.arrived).resetHold = s.resetHold := rfl
@[simp] theorem State.arrived_lines (s : State) : (s.arrived).lines = s.lines := rfl
@[simp] theorem State.arrived_classifier (s : State) : (s.arrived).classifier = s.classifier := rfl
@[simp] theorem State.arrived_feeds (s : State) : (s.arrived).feeds = s.feeds := rfl
@[simp] theorem State.arrived_time (s : State) : (s.arrived).time = s.time := rfl
@[simp] theorem State.arrived_monitors (s : State) : (s.arrived).monitors = s.monitors := rfl
@[simp] theorem State.arrived_discipline (s : State) : (s.arrived).discipline = s.discipline := rfl
@[simp] theorem State.arrived_queue (s : State) : (s.arrived).queue = s.queue := rfl
@[simp] theorem State.arrived_notices (s : State) : (s.arrived).notices = s.notices := rfl
@[simp] theorem State.arrived_pending (s : State) : (s.arrived).pending = s.pending := rfl

/-! State.setPolicy -/

@[simp] theorem State.setPolicy_pins (s : State) (policy : Policy) : (s.setPolicy policy).pins = s.pins := rfl
@[simp] theorem State.setPolicy_resetHold (s : State) (policy : Policy) : (s.setPolicy policy).resetHold = s.resetHold := rfl
@[simp] theorem State.setPolicy_lines (s : State) (policy : Policy) : (s.setPolicy policy).lines = s.lines := rfl
@[simp] theorem State.setPolicy_classifier (s : State) (policy : Policy) : (s.setPolicy policy).classifier = s.classifier := rfl
@[simp] theorem State.setPolicy_feeds (s : State) (policy : Policy) : (s.setPolicy policy).feeds = s.feeds := rfl
@[simp] theorem State.setPolicy_time (s : State) (policy : Policy) : (s.setPolicy policy).time = s.time := rfl
@[simp] theorem State.setPolicy_monitors (s : State) (policy : Policy) : (s.setPolicy policy).monitors = s.monitors := rfl
@[simp] theorem State.setPolicy_queue (s : State) (policy : Policy) : (s.setPolicy policy).queue = s.queue := rfl
@[simp] theorem State.setPolicy_notices (s : State) (policy : Policy) : (s.setPolicy policy).notices = s.notices := rfl
@[simp] theorem State.setPolicy_link (s : State) (policy : Policy) : (s.setPolicy policy).link = s.link := rfl
@[simp] theorem State.setPolicy_pending (s : State) (policy : Policy) : (s.setPolicy policy).pending = s.pending := rfl

/-! Conditional updates: the frame of each is that of its two branches. -/

@[simp] theorem State.noteAppend_pins (s : State) (i : LineId) : (s.noteAppend i).pins = s.pins := by
  unfold State.noteAppend; split <;> rfl
@[simp] theorem State.noteAppend_resetHold (s : State) (i : LineId) : (s.noteAppend i).resetHold = s.resetHold := by
  unfold State.noteAppend; split <;> rfl
@[simp] theorem State.noteAppend_lines (s : State) (i : LineId) : (s.noteAppend i).lines = s.lines := by
  unfold State.noteAppend; split <;> rfl
@[simp] theorem State.noteAppend_feeds (s : State) (i : LineId) : (s.noteAppend i).feeds = s.feeds := by
  unfold State.noteAppend; split <;> rfl
@[simp] theorem State.noteAppend_time (s : State) (i : LineId) : (s.noteAppend i).time = s.time := by
  unfold State.noteAppend; split <;> rfl
@[simp] theorem State.noteAppend_monitors (s : State) (i : LineId) : (s.noteAppend i).monitors = s.monitors := by
  unfold State.noteAppend; split <;> rfl
@[simp] theorem State.noteAppend_discipline (s : State) (i : LineId) : (s.noteAppend i).discipline = s.discipline := by
  unfold State.noteAppend; split <;> rfl
@[simp] theorem State.noteAppend_queue (s : State) (i : LineId) : (s.noteAppend i).queue = s.queue := by
  unfold State.noteAppend; split <;> rfl
@[simp] theorem State.noteAppend_notices (s : State) (i : LineId) : (s.noteAppend i).notices = s.notices := by
  unfold State.noteAppend; split <;> rfl
@[simp] theorem State.noteAppend_link (s : State) (i : LineId) : (s.noteAppend i).link = s.link := by
  unfold State.noteAppend; split <;> rfl
@[simp] theorem State.noteAppend_pending (s : State) (i : LineId) : (s.noteAppend i).pending = s.pending := by
  unfold State.noteAppend; split <;> rfl

@[simp] theorem State.owe_pins (s : State) : (s.owe).pins = s.pins := by
  unfold State.owe; split <;> rfl
@[simp] theorem State.owe_resetHold (s : State) : (s.owe).resetHold = s.resetHold := by
  unfold State.owe; split <;> rfl
@[simp] theorem State.owe_lines (s : State) : (s.owe).lines = s.lines := by
  unfold State.owe; split <;> rfl
@[simp] theorem State.owe_classifier (s : State) : (s.owe).classifier = s.classifier := by
  unfold State.owe; split <;> rfl
@[simp] theorem State.owe_feeds (s : State) : (s.owe).feeds = s.feeds := by
  unfold State.owe; split <;> rfl
@[simp] theorem State.owe_time (s : State) : (s.owe).time = s.time := by
  unfold State.owe; split <;> rfl
@[simp] theorem State.owe_monitors (s : State) : (s.owe).monitors = s.monitors := by
  unfold State.owe; split <;> rfl
@[simp] theorem State.owe_discipline (s : State) : (s.owe).discipline = s.discipline := by
  unfold State.owe; split <;> rfl
@[simp] theorem State.owe_queue (s : State) : (s.owe).queue = s.queue := by
  unfold State.owe; split <;> rfl
@[simp] theorem State.owe_notices (s : State) : (s.owe).notices = s.notices := by
  unfold State.owe; split <;> rfl
@[simp] theorem State.owe_pending (s : State) : (s.owe).pending = s.pending := by
  unfold State.owe; split <;> rfl

@[simp] theorem State.queueResult_pins (s : State) (r : Result) : (s.queueResult r).pins = s.pins := by
  unfold State.queueResult; split <;> rfl
@[simp] theorem State.queueResult_resetHold (s : State) (r : Result) : (s.queueResult r).resetHold = s.resetHold := by
  unfold State.queueResult; split <;> rfl
@[simp] theorem State.queueResult_lines (s : State) (r : Result) : (s.queueResult r).lines = s.lines := by
  unfold State.queueResult; split <;> rfl
@[simp] theorem State.queueResult_classifier (s : State) (r : Result) : (s.queueResult r).classifier = s.classifier := by
  unfold State.queueResult; split <;> rfl
@[simp] theorem State.queueResult_feeds (s : State) (r : Result) : (s.queueResult r).feeds = s.feeds := by
  unfold State.queueResult; split <;> rfl
@[simp] theorem State.queueResult_time (s : State) (r : Result) : (s.queueResult r).time = s.time := by
  unfold State.queueResult; split <;> rfl
@[simp] theorem State.queueResult_monitors (s : State) (r : Result) : (s.queueResult r).monitors = s.monitors := by
  unfold State.queueResult; split <;> rfl
@[simp] theorem State.queueResult_discipline (s : State) (r : Result) : (s.queueResult r).discipline = s.discipline := by
  unfold State.queueResult; split <;> rfl
@[simp] theorem State.queueResult_queue (s : State) (r : Result) : (s.queueResult r).queue = s.queue := by
  unfold State.queueResult; split <;> rfl
@[simp] theorem State.queueResult_notices (s : State) (r : Result) : (s.queueResult r).notices = s.notices := by
  unfold State.queueResult; split <;> rfl
@[simp] theorem State.queueResult_pending (s : State) (r : Result) : (s.queueResult r).pending = s.pending := by
  unfold State.queueResult; split <;> rfl

@[simp] theorem State.answer_pins (s : State) (k tag : Byte) (r : Reply) : (s.answer k tag r).pins = s.pins := by
  unfold State.answer; simp
@[simp] theorem State.answer_resetHold (s : State) (k tag : Byte) (r : Reply) : (s.answer k tag r).resetHold = s.resetHold := by
  unfold State.answer; simp
@[simp] theorem State.answer_lines (s : State) (k tag : Byte) (r : Reply) : (s.answer k tag r).lines = s.lines := by
  unfold State.answer; simp
@[simp] theorem State.answer_classifier (s : State) (k tag : Byte) (r : Reply) : (s.answer k tag r).classifier = s.classifier := by
  unfold State.answer; simp
@[simp] theorem State.answer_feeds (s : State) (k tag : Byte) (r : Reply) : (s.answer k tag r).feeds = s.feeds := by
  unfold State.answer; simp
@[simp] theorem State.answer_time (s : State) (k tag : Byte) (r : Reply) : (s.answer k tag r).time = s.time := by
  unfold State.answer; simp
@[simp] theorem State.answer_monitors (s : State) (k tag : Byte) (r : Reply) : (s.answer k tag r).monitors = s.monitors := by
  unfold State.answer; simp
@[simp] theorem State.answer_discipline (s : State) (k tag : Byte) (r : Reply) : (s.answer k tag r).discipline = s.discipline := by
  unfold State.answer; simp
@[simp] theorem State.answer_queue (s : State) (k tag : Byte) (r : Reply) : (s.answer k tag r).queue = s.queue := by
  unfold State.answer; simp
@[simp] theorem State.answer_notices (s : State) (k tag : Byte) (r : Reply) : (s.answer k tag r).notices = s.notices := by
  unfold State.answer; simp
@[simp] theorem State.answer_pending (s : State) (k tag : Byte) (r : Reply) : (s.answer k tag r).pending = s.pending := by
  unfold State.answer; simp

/-! Accessors -/

@[simp] theorem State.line_setLine (s : State) (i : LineId) (p : LinePort) : (s.setLine i p).line i = p := by
  simp [State.line, State.setLine]

theorem State.line_setLine_ne (s : State) {i j : LineId} (p : LinePort) (h : i ≠ j) : (s.setLine i p).line j = s.line j := by
  have h' : i.val ≠ j.val := fun e => h (Fin.ext e)
  simp [State.line, State.setLine, Vector.getElem_set_ne, h']

theorem State.line_congr {s t : State} (h : t.lines = s.lines) (i : LineId) : t.line i = s.line i := by simp [State.line, h]

@[simp] theorem State.feed_setFeed (s : State) (i : FeedId) (f : Feed) : (s.setFeed i f).feed i = f := by
  simp [State.feed, State.setFeed]

theorem State.feed_setFeed_ne (s : State) {i j : FeedId} (f : Feed) (h : i ≠ j) : (s.setFeed i f).feed j = s.feed j := by
  have h' : i.val ≠ j.val := fun e => h (Fin.ext e)
  simp [State.feed, State.setFeed, Vector.getElem_set_ne, h']

theorem State.feed_congr {s t : State} (h : t.feeds = s.feeds) (i : FeedId) : t.feed i = s.feed i := by simp [State.feed, h]

@[simp] theorem State.feed_onFeed (s : State) (i : FeedId) (g : Feed → Feed) : (s.onFeed i g).feed i = g (s.feed i) := by
  simp [State.onFeed]

theorem State.feed_onFeed_ne (s : State) {i j : FeedId} (g : Feed → Feed) (h : i ≠ j) : (s.onFeed i g).feed j = s.feed j := by
  simp [State.onFeed, State.feed_setFeed_ne _ _ h]

@[simp] theorem State.feed_offer (s : State) (r : Record) (i : FeedId) : (s.offer r).feed i = s.feed i := rfl

@[simp] theorem State.feed_offerNow (s : State) (b : RecordBody) (i : FeedId) : (s.offerNow b).feed i = s.feed i := rfl

@[simp] theorem State.feed_raise (s : State) (id : NoticeId) (x : Summary) (i : FeedId) : (s.raise id x).feed i = s.feed i := rfl

@[simp] theorem State.line_offer (s : State) (r : Record) (i : LineId) : (s.offer r).line i = s.line i := rfl

@[simp] theorem State.line_offerNow (s : State) (b : RecordBody) (i : LineId) : (s.offerNow b).line i = s.line i := rfl

@[simp] theorem State.line_raise (s : State) (id : NoticeId) (x : Summary) (i : LineId) : (s.raise id x).line i = s.line i := rfl

@[simp] theorem State.monitor_setMonitor (s : State) (r : RefId) (x : Monitor) : (s.setMonitor r x).monitor r = x := by
  cases r <;> rfl

theorem State.monitor_setMonitor_ne (s : State) {r q : RefId} (x : Monitor) (h : r ≠ q) : (s.setMonitor r x).monitor q = s.monitor q := by
  cases r <;> cases q <;> first | rfl | exact absurd rfl h

@[simp] theorem NoticeTable.get_set (t : NoticeTable) (id : NoticeId) (x : NoticeSource) : (t.set id x).get id = x := by
  cases id <;> rfl

theorem NoticeTable.get_set_ne (t : NoticeTable) {id j : NoticeId} (x : NoticeSource) (h : id ≠ j) : (t.set id x).get j = t.get j := by
  cases id <;> cases j <;> first | rfl | exact absurd rfl h

/-! The clock of an event: no update but the tick and a reset moves the local count. -/

theorem State.now_congr {s t : State} (h : t.time = s.time) : t.now = s.now := by simp [State.now, h]

theorem State.reading_congr {s t : State} (h : t.time = s.time) : t.reading = s.reading := by simp [State.reading, h]

end Sys2Proof.Machine
end

