-- ==== Sys2Proof/Laws/Queue.lean ====
section
/-! SUPPORT. The record queue's operations: what each keeps of the queue's invariant, and when a record is kept or lost. -/

namespace Sys2Proof.Machine

/-! ## Lists of entries -/

theorem ordinaryCount_nil : ordinaryCount [] = 0 := rfl

theorem ordinaryCount_append (a b : List Entry) : ordinaryCount (a ++ b) = ordinaryCount a + ordinaryCount b := by
  simp [ordinaryCount, List.filter_append]

theorem ordinaryCount_record (r : Record) (l : List Entry) : ordinaryCount (.record r :: l) = ordinaryCount l + 1 := by
  simp [ordinaryCount, Entry.isMarker]

theorem ordinaryCount_marker (m : Marker) (l : List Entry) : ordinaryCount (.marker m :: l) = ordinaryCount l := by
  simp [ordinaryCount, Entry.isMarker]

theorem noTwinMarkers_tail {e : Entry} {l : List Entry} (h : noTwinMarkers (e :: l) = true) : noTwinMarkers l = true := by
  simp [noTwinMarkers] at h; exact h.2

theorem noTwinMarkers_snoc_record (l : List Entry) (r : Record) (h : noTwinMarkers l = true) :
    noTwinMarkers (l ++ [.record r]) = true := by
  induction l with
  | nil => rfl
  | cons e l ih =>
    cases l with
    | nil => cases e <;> rfl
    | cons e' l => simp_all [noTwinMarkers]

theorem noTwinMarkers_snoc_marker (l : List Entry) (m : Marker) (h : noTwinMarkers l = true)
    (hl : ∀ m', l.getLast? ≠ some (.marker m')) : noTwinMarkers (l ++ [.marker m]) = true := by
  induction l with
  | nil => rfl
  | cons e l ih =>
    cases l with
    | nil => cases e with
      | record r => rfl
      | marker m' => exact absurd rfl (hl m')
    | cons e' l => simp_all [noTwinMarkers]

theorem noTwinMarkers_swap_marker (l : List Entry) (m m' : Marker) (h : noTwinMarkers (l ++ [.marker m]) = true) :
    noTwinMarkers (l ++ [.marker m']) = true := by
  induction l with
  | nil => rfl
  | cons e l ih =>
    cases l with
    | nil => cases e <;> simp_all [noTwinMarkers, Entry.isMarker]
    | cons e' l => simp_all [noTwinMarkers]

/-- The re-arm level, for rewriting (R164). -/
theorem RecordQueue.rearmLevel_eq (q : RecordQueue) : q.rearmLevel = q.threshold - 512 := rfl

/-! ## Appending (R161, R164) -/

theorem RecordQueue.append_entries (q : RecordQueue) (e : Entry) : (q.append e).1.entries = q.entries ++ [e] := by
  unfold RecordQueue.append; split <;> rfl

theorem RecordQueue.append_offered (q : RecordQueue) (e : Entry) : (q.append e).1.offered = q.offered := by
  unfold RecordQueue.append; split <;> rfl

theorem RecordQueue.append_delivered (q : RecordQueue) (e : Entry) : (q.append e).1.delivered = q.delivered := by
  unfold RecordQueue.append; split <;> rfl

theorem RecordQueue.append_lost (q : RecordQueue) (e : Entry) : (q.append e).1.lost = q.lost := by
  unfold RecordQueue.append; split <;> rfl

theorem RecordQueue.append_threshold (q : RecordQueue) (e : Entry) : (q.append e).1.threshold = q.threshold := by
  unfold RecordQueue.append; split <;> rfl

theorem RecordQueue.append_period (q : RecordQueue) (e : Entry) : (q.append e).1.period = q.period := by
  unfold RecordQueue.append; split <;> rfl

theorem RecordQueue.append_statsDeadline (q : RecordQueue) (e : Entry) : (q.append e).1.statsDeadline = q.statsDeadline := by
  unfold RecordQueue.append; split <;> rfl

theorem RecordQueue.append_periodIndex (q : RecordQueue) (e : Entry) : (q.append e).1.periodIndex = q.periodIndex := by
  unfold RecordQueue.append; split <;> rfl

theorem RecordQueue.append_armed (q : RecordQueue) (e : Entry) :
    (q.append e).1.armed = (q.armed && !decide (q.entries.length + 1 = q.threshold)) := by
  unfold RecordQueue.append; split <;> simp_all

/-- A record appended within the room that R161 leaves keeps the invariant, once records offered has counted it. -/
theorem RecordQueue.append_record_sound {q : RecordQueue} (h : q.Sound) (r : Record) (hroom : q.entries.length + 2 ≤ Config.queueSlots) :
    ({ q with offered := q.offered + 1 }.append (.record r)).1.Sound := by
  obtain ⟨_, _, h3, h4, h5, h6, h7, h8⟩ := h
  have hs : Config.queueSlots = 4096 := rfl
  refine ⟨?_, ?_, ?_, ?_, ?_, ?_, ?_, ?_⟩ <;>
    simp only [append_entries, append_offered, append_delivered, append_lost, append_threshold, append_period,
        append_statsDeadline, append_armed, rearmLevel_eq, List.length_append, List.length_singleton]
  · omega
  · intro e; omega
  · exact noTwinMarkers_snoc_record _ _ h3
  · rw [h4, ordinaryCount_append, ordinaryCount_record, ordinaryCount_nil, BitVec.ofNat_add]
    generalize BitVec.ofNat 64 (ordinaryCount q.entries) = x
    show _ = q.delivered + (x + 1#64) + q.lost
    ac_rfl
  · exact h5
  · intro ha
    simp at ha
    have := h6 ha.1; omega
  · intro ha
    simp at ha
    cases hq : q.armed with
    | true => have := ha hq; omega
    | false => have := h7 hq; simp [RecordQueue.rearmLevel_eq] at this; omega
  · exact h8

/-- A record lost keeps the invariant, once records offered and records lost have counted it (R161, R162). -/
theorem RecordQueue.lose_sound {q : RecordQueue} (h : q.Sound) (k : Nat) (now : Stamp) (hfull : ¬ q.entries.length + 2 ≤ Config.queueSlots) :
    ({ q with offered := q.offered + 1, lost := q.lost + 1 }.lose k now).1.Sound := by
  obtain ⟨h1, h2, h3, h4, h5, h6, h7, h8⟩ := h
  have hs : Config.queueSlots = 4096 := rfl
  unfold RecordQueue.lose
  split
  · rename_i m hm
    simp only at hm
    have hne : q.entries ≠ [] := by intro e; simp [e] at hm
    have hcut : q.entries = q.entries.dropLast ++ [.marker m] := by
      rw [List.getLast?_eq_getLast_of_ne_nil hne] at hm
      rw [← Option.some.inj hm, List.dropLast_append_getLast]
    have hlen : (q.entries.dropLast ++ [Entry.marker (m.merge k now)]).length = q.entries.length := by
      conv_rhs => rw [hcut]
      simp
    refine ⟨?_, ?_, ?_, ?_, ?_, ?_, ?_, ?_⟩ <;> simp only [rearmLevel_eq]
    · omega
    · intro _; exact ⟨_, by simp; rfl⟩
    · exact noTwinMarkers_swap_marker _ m _ (hcut ▸ h3)
    · have e : ordinaryCount (q.entries.dropLast ++ [Entry.marker (m.merge k now)]) = ordinaryCount q.entries := by
        conv_rhs => rw [hcut]
        simp [ordinaryCount_append, ordinaryCount_marker]
      rw [e, h4]; ac_rfl
    · exact h5
    · rw [hlen]; exact h6
    · rw [hlen]; exact h7
    · exact h8
  · rename_i hm
    simp only at hm
    have hlen : q.entries.length = 4095 := by
      rcases Nat.lt_or_ge q.entries.length 4096 with hlt | hge
      · omega
      · obtain ⟨m, hm'⟩ := h2 (by omega)
        exact absurd hm' (by intro e; exact hm m e)
    refine ⟨?_, ?_, ?_, ?_, ?_, ?_, ?_, ?_⟩ <;>
      simp only [append_entries, append_offered, append_delivered, append_lost, append_threshold, append_period,
        append_statsDeadline, append_armed, rearmLevel_eq, List.length_append, List.length_singleton]
    · omega
    · intro _; exact ⟨_, by simp; rfl⟩
    · exact noTwinMarkers_snoc_marker _ _ h3 (fun m' e => hm m' e)
    · rw [h4, ordinaryCount_append, ordinaryCount_marker, ordinaryCount_nil, Nat.add_zero]; ac_rfl
    · exact h5
    · intro ha; simp at ha; have := h6 ha.1; omega
    · intro _; omega
    · exact h8

/-- Whatever record is offered, the queue's invariant is kept (R159 to R164). -/
theorem RecordQueue.take_sound {q : RecordQueue} (h : q.Sound) (r : Record) (now : Stamp) : (q.take r now).1.Sound := by
  unfold RecordQueue.take
  split
  · exact append_record_sound h r ‹_›
  · exact lose_sound h _ _ ‹_›

theorem RecordQueue.take_ne_nil (q : RecordQueue) (r : Record) (now : Stamp) : (q.take r now).1.entries ≠ [] := by
  unfold RecordQueue.take
  split
  · simp [append_entries]
  · unfold RecordQueue.lose; split
    · simp
    · simp [append_entries]

theorem State.offer_sound {s : State} (h : s.queue.Sound) (r : Record) : (s.offer r).queue.Sound := RecordQueue.take_sound h r _

theorem State.offerNow_sound {s : State} (h : s.queue.Sound) (b : RecordBody) : (s.offerNow b).queue.Sound := State.offer_sound h _

/-! ## Removal and configuration (R164, R165, R167, R174) -/

theorem RecordQueue.rearm_sound_of {q : RecordQueue}
    (size : q.entries.length ≤ Config.queueSlots)
    (lastSlot : q.entries.length = Config.queueSlots → ∃ m, q.entries.getLast? = some (.marker m))
    (apart : noTwinMarkers q.entries = true)
    (totals : q.offered = q.delivered + BitVec.ofNat 64 (ordinaryCount q.entries) + q.lost)
    (threshold : 256 ≤ q.threshold ∧ q.threshold ≤ 4095)
    (armed : q.armed = true → q.entries.length < q.threshold)
    (timer : q.statsDeadline.isSome = true ↔ q.period ≠ 0) : q.rearm.Sound := by
  unfold RecordQueue.rearm
  split
  · rename_i hc
    refine ⟨size, lastSlot, apart, totals, threshold, ?_, by simp, timer⟩
    intro _
    simp only [rearmLevel_eq] at hc ⊢
    omega
  · rename_i hc
    refine ⟨size, lastSlot, apart, totals, threshold, armed, ?_, timer⟩
    intro ha
    by_contra hlt
    exact hc ⟨ha, by omega⟩

theorem RecordQueue.removeHead_sound {q : RecordQueue} (h : q.Sound) : q.removeHead.Sound := by
  obtain ⟨h1, h2, h3, h4, h5, h6, h7, h8⟩ := h
  have hs : Config.queueSlots = 4096 := rfl
  unfold RecordQueue.removeHead
  split
  · rename_i r rest he
    rw [he] at h1 h3 h4 h6
    simp only [List.length_cons] at h1 h6
    apply rearm_sound_of <;> simp only
    · omega
    · intro e; omega
    · exact noTwinMarkers_tail h3
    · rw [h4, ordinaryCount_record, BitVec.ofNat_add]
      generalize BitVec.ofNat 64 (ordinaryCount rest) = x
      show _ + (x + 1#64) + _ = _
      ac_rfl
    · exact h5
    · intro ha; have := h6 ha; omega
    · exact h8
  · rename_i m rest he
    rw [he] at h1 h3 h4 h6
    simp only [List.length_cons] at h1 h6
    apply rearm_sound_of <;> simp only
    · omega
    · intro e; omega
    · exact noTwinMarkers_tail h3
    · rw [h4, ordinaryCount_marker]
    · exact h5
    · intro ha; have := h6 ha; omega
    · exact h8
  · exact ⟨h1, h2, h3, h4, h5, h6, h7, h8⟩

theorem RecordQueue.configure_sound {q : RecordQueue} (h : q.Sound) (threshold period : Nat) (now : LocalCount)
    (ht : 256 ≤ threshold ∧ threshold ≤ 4095) : (q.configure threshold period now).1.Sound := by
  obtain ⟨h1, h2, h3, h4, h5, h6, h7, h8⟩ := h
  have htimer : (statsStart period now).isSome = true ↔ period ≠ 0 := by unfold statsStart; split <;> simp_all
  unfold RecordQueue.configure
  simp only
  split
  · rename_i hc
    refine ⟨h1, h2, h3, h4, ht, by simp, ?_, htimer⟩
    intro _
    simp only [rearmLevel_eq] at hc ⊢
    omega
  · rename_i hc
    apply rearm_sound_of <;> simp only
    · exact h1
    · exact h2
    · exact h3
    · exact h4
    · exact ht
    · intro ha
      by_contra hlt
      exact hc ⟨ha, by omega⟩
    · exact htimer

theorem RecordQueue.nextPeriod_sound {q : RecordQueue} (h : q.Sound) (hd : q.statsDeadline.isSome = true) (d : LocalCount) :
    (q.nextPeriod d).Sound := by
  obtain ⟨h1, h2, h3, h4, h5, h6, h7, h8⟩ := h
  exact ⟨h1, h2, h3, h4, h5, h6, h7, by simp [RecordQueue.nextPeriod, h8.mp hd]⟩

theorem RecordQueue.reset_sound : RecordQueue.reset.Sound := by
  refine ⟨by decide, fun h => absurd h (by decide), by decide, by decide, by decide, by decide, by decide, by decide⟩

end Sys2Proof.Machine
end

