-- ==== Sys2Proof/Laws/Frames.lean ====
section
/-! SUPPORT. What an event of one feed can change at all: that feed, the record queue and the notice table. One lemma for each operation of the
feed engine, each following from the lemmas of the operations it is made of. -/

namespace Sys2Proof.Machine

theorem SameButFeeds.refl (s : State) : SameButFeeds s s := ⟨rfl, rfl, rfl, rfl, rfl, rfl, rfl, rfl, rfl⟩

theorem SameButFeeds.trans {s t u : State} (a : SameButFeeds s t) (b : SameButFeeds t u) : SameButFeeds s u :=
  ⟨b.pins.trans a.pins, b.resetHold.trans a.resetHold, b.lines.trans a.lines, b.classifier.trans a.classifier, b.time.trans a.time,
    b.monitors.trans a.monitors, b.discipline.trans a.discipline, b.link.trans a.link, b.pending.trans a.pending⟩

/-- What an event of feed i keeps: all but the feed, the queue and the notices; the queue's invariant; and the queue from becoming empty. -/
structure Acts (i : FeedId) (s t : State) : Prop where
  same : SameButFeeds s t
  others : ∀ j, i ≠ j → t.feed j = s.feed j
  queue : s.queue.Sound → t.queue.Sound
  kept : s.queue.entries ≠ [] → t.queue.entries ≠ []

theorem Acts.refl (i : FeedId) (s : State) : Acts i s s := ⟨.refl s, fun _ _ => rfl, id, id⟩

theorem Acts.trans {i : FeedId} {s t u : State} (a : Acts i s t) (b : Acts i t u) : Acts i s u :=
  ⟨a.same.trans b.same, fun j h => (b.others j h).trans (a.others j h), b.queue ∘ a.queue, b.kept ∘ a.kept⟩

theorem Acts.now {i : FeedId} {s t : State} (a : Acts i s t) : t.now = s.now := State.now_congr a.same.time

theorem Acts.reading {i : FeedId} {s t : State} (a : Acts i s t) : t.reading = s.reading := State.reading_congr a.same.time

theorem Acts.offer (i : FeedId) (s : State) (r : Record) : Acts i s (s.offer r) :=
  ⟨⟨rfl, rfl, rfl, rfl, rfl, rfl, rfl, rfl, rfl⟩, fun _ _ => rfl, fun h => State.offer_sound h r, fun _ => RecordQueue.take_ne_nil _ _ _⟩

theorem Acts.offerNow (i : FeedId) (s : State) (b : RecordBody) : Acts i s (s.offerNow b) := .offer i s _

theorem Acts.raise (i : FeedId) (s : State) (id : NoticeId) (x : Summary) : Acts i s (s.raise id x) :=
  ⟨⟨rfl, rfl, rfl, rfl, rfl, rfl, rfl, rfl, rfl⟩, fun _ _ => rfl, fun h => h, fun h => h⟩

theorem Acts.setFeed (i : FeedId) (s : State) (f : Feed) : Acts i s (s.setFeed i f) :=
  ⟨⟨rfl, rfl, rfl, rfl, rfl, rfl, rfl, rfl, rfl⟩, fun _ h => State.feed_setFeed_ne s f h, fun h => h, fun h => h⟩

theorem Acts.onFeed (i : FeedId) (s : State) (g : Feed → Feed) : Acts i s (s.onFeed i g) := .setFeed i s _

theorem Acts.count (i : FeedId) (s : State) (g : FeedCounters → FeedCounters) : Acts i s (s.count i g) := .onFeed i s _

theorem Acts.setHold (i : FeedId) (s : State) (l : List HeldRecord) : Acts i s (s.setHold i l) := .onFeed i s _

theorem Acts.setGaps (i : FeedId) (s : State) (l : List GapRange) : Acts i s (s.setGaps i l) := .onFeed i s _

theorem Acts.setCandidate (i : FeedId) (s : State) (c : Option HeldRecord) : Acts i s (s.setCandidate i c) := .onFeed i s _

theorem Acts.setFeedState (i : FeedId) (s : State) (st : FeedState) : Acts i s (s.setFeedState i st) := .onFeed i s _

theorem Acts.release (i : FeedId) (st : TwinStatus) (h : HeldRecord) (s : State) : Acts i s (s.release i st h) :=
  (Acts.offer i s _).trans (.count i _ _)

theorem Acts.releaseAll (i : FeedId) (rs : List (TwinStatus × HeldRecord)) (s : State) : Acts i s (s.releaseAll i rs) := by
  induction rs generalizing s with
  | nil => exact .refl i s
  | cons r rs ih => exact (Acts.release i r.1 r.2 s).trans (ih _)

theorem Acts.declare (i : FeedId) (c : GapCause) (g : GapRange) (s : State) : Acts i s (s.declare i c g) :=
  (Acts.offerNow i s _).trans (.count i _ _)

theorem Acts.declareAll (i : FeedId) (c : GapCause) (gs : List GapRange) (s : State) : Acts i s (s.declareAll i c gs) := by
  induction gs generalizing s with
  | nil => exact .refl i s
  | cons g gs ih => exact (Acts.declare i c g s).trans (ih _)

theorem Acts.chain (i : FeedId) (s : State) : Acts i s (s.chain i) := (Acts.setHold i s _).trans (.releaseAll i _ _)

theorem Acts.flushHold (i : FeedId) (st : TwinStatus) (s : State) : Acts i s (s.flushHold i st) :=
  (Acts.setHold i s _).trans (.releaseAll i _ _)

theorem Acts.flushGaps (i : FeedId) (c : GapCause) (s : State) : Acts i s (s.flushGaps i c) :=
  (Acts.setGaps i s _).trans (.declareAll i _ _ _)

theorem Acts.expireGaps (i : FeedId) (s : State) : Acts i s (s.expireGaps i) := (Acts.setGaps i s _).trans (.declareAll i _ _ _)

theorem Acts.expirePairing (i : FeedId) (s : State) : Acts i s (s.expirePairing i) := by
  unfold State.expirePairing
  split
  · split
    · exact .chain i s
    · exact .refl i s
  · exact .refl i s

theorem Acts.splitGap (i : FeedId) (n : SeqNum) (b : List GapRange) (g : GapRange) (a : List GapRange) (s : State) :
    Acts i s (s.splitGap i n b g a) := by
  unfold State.splitGap
  split
  · exact .setGaps i s _
  · split
    · exact (Acts.setGaps i s _).trans (.declare i _ _ _)
    · exact (Acts.setGaps i s _).trans (.declare i _ _ _)

theorem Acts.takeFromGap (i : FeedId) (n : SeqNum) (b : List GapRange) (g : GapRange) (a : List GapRange) (s : State) :
    Acts i s (s.takeFromGap i n b g a) := by
  unfold State.takeFromGap
  split
  · exact (Acts.setGaps i s _).trans (.count i _ _)
  · split
    · exact .setGaps i s _
    · split
      · exact .setGaps i s _
      · exact .splitGap i n b g a s

theorem Acts.removeFromGaps (i : FeedId) (n : SeqNum) (s : State) : Acts i s (s.removeFromGaps i n) := by
  unfold State.removeFromGaps
  simp only
  split
  · exact .takeFromGap i n _ _ _ s
  · exact .refl i s

theorem Acts.openGap (i : FeedId) (f l : SeqNum) (o : Stamp) (s : State) : Acts i s (s.openGap i f l o) := by
  unfold State.openGap
  simp only
  split
  · split
    · exact (Acts.setGaps i s _).trans (.count i _ _)
    · exact ((Acts.setGaps i s _).trans (.declare i _ _ _)).trans (.count i _ _)
  · exact (Acts.setGaps i s _).trans (.count i _ _)

theorem Acts.reportLeg (i : FeedId) (leg : Leg) (o n : LegState) (st : Stamp) (s : State) : Acts i s (s.reportLeg i leg o n st) :=
  (Acts.offer i s _).trans (.raise i _ _ _)

theorem Acts.updateLeg (i : FeedId) (leg : Leg) (st : Stamp) (s : State) : Acts i s (s.updateLeg i leg st) := by
  unfold State.updateLeg
  simp only
  split
  · exact .setFeed i s _
  · exact (Acts.setFeed i s _).trans (.reportLeg i _ _ _ _ _)

theorem Acts.expireSilence (i : FeedId) (leg : Leg) (s : State) : Acts i s (s.expireSilence i leg) := by
  unfold State.expireSilence
  simp only
  split
  · exact (Acts.setFeed i s _).trans (.reportLeg i _ _ _ _ _)
  · exact .refl i s

theorem Acts.bypass (i : FeedId) (h : HeldRecord) (s : State) : Acts i s (s.bypass i h) := (Acts.count i s _).trans (.release i _ _ _)

theorem Acts.create (i : FeedId) (a : Arrival) (late : Bool) (s : State) : Acts i s (s.create i a late) := by
  unfold State.create
  simp only
  split
  · exact (Acts.count i s _).trans (.bypass i _ _)
  · exact (Acts.count i s _).trans (.setHold i _ _)

theorem Acts.meetCandidate (i : FeedId) (h : HeldRecord) (a : Arrival) (s : State) : Acts i s (s.meetCandidate i h a) :=
  (Acts.setCandidate i s _).trans (.count i _ _)

theorem Acts.meetHeld (i : FeedId) (h : HeldRecord) (a : Arrival) (s : State) : Acts i s (s.meetHeld i h a) := by
  unfold State.meetHeld
  simp only
  split
  · exact ((Acts.setHold i s _).trans (.count i _ _)).trans (.chain i _)
  · exact (Acts.setHold i s _).trans (.count i _ _)

theorem Acts.lateFill (i : FeedId) (a : Arrival) (s : State) : Acts i s (s.lateFill i a) :=
  ((Acts.removeFromGaps i _ s).trans (.create i a true _)).trans (.count i _ _)

theorem Acts.ageGaps (i : FeedId) (e : SeqNum) (s : State) : Acts i s (s.ageGaps i e) :=
  (Acts.setGaps i s _).trans (.declareAll i _ _ _)

theorem Acts.ageHeld (i : FeedId) (e : SeqNum) (s : State) : Acts i s (s.ageHeld i e) := by
  unfold State.ageHeld
  simp only
  split
  · exact .refl i s
  · exact ((Acts.setHold i s _).trans (.releaseAll i _ _)).trans (.chain i _)

theorem Acts.dropCandidate (i : FeedId) (s : State) : Acts i s (s.dropCandidate i) := (Acts.setCandidate i s _).trans (.count i _ _)

theorem Acts.ageCandidate (i : FeedId) (e : SeqNum) (s : State) : Acts i s (s.ageCandidate i e) := by
  unfold State.ageCandidate
  split
  · split
    · exact .refl i s
    · exact .dropCandidate i s
  · exact .refl i s

theorem Acts.age (i : FeedId) (e : SeqNum) (s : State) : Acts i s (s.age i e) :=
  ((Acts.ageGaps i e s).trans (.ageHeld i e _)).trans (.ageCandidate i e _)

theorem Acts.inOrder (i : FeedId) (a : Arrival) (s : State) : Acts i s (s.inOrder i a) :=
  ((Acts.create i a false s).trans (.setFeedState i _ _)).trans (.age i _ _)

theorem Acts.ahead (i : FeedId) (e : SeqNum) (a : Arrival) (s : State) : Acts i s (s.ahead i e a) :=
  (((Acts.openGap i _ _ _ s).trans (.create i a false _)).trans (.setFeedState i _ _)).trans (.age i _ _)

theorem Acts.lateCopy (i : FeedId) (s : State) : Acts i s (s.lateCopy i) := .count i s _

theorem Acts.becomeCandidate (i : FeedId) (a : Arrival) (s : State) : Acts i s (s.becomeCandidate i a) := by
  unfold State.becomeCandidate
  simp only
  split
  · exact (Acts.dropCandidate i s).trans (.setCandidate i _ _)
  · exact .setCandidate i s _

theorem Acts.place (i : FeedId) (e : SeqNum) (a : Arrival) (s : State) : Acts i s (s.place i e a) := by
  unfold State.place
  split
  · exact .inOrder i a s
  · split
    · exact .becomeCandidate i a s
    · split
      · exact .lateCopy i s
      · exact .ahead i e a s

theorem Acts.promote (i : FeedId) (c : HeldRecord) (s : State) : Acts i s (s.promote i c) := by
  unfold State.promote
  simp only
  have h := (Acts.setCandidate i s none).trans (.count i _ fun k => { k with firstCopies := k.firstCopies + 1 })
  split
  · split
    · exact h.trans (.release i _ _ _)
    · exact h.trans (.bypass i _ _)
  · exact (h.trans (.setHold i _ _)).trans (.chain i _)

theorem Acts.confirmRestart (i : FeedId) (e : SeqNum) (c : HeldRecord) (a : Arrival) (s : State) :
    Acts i s (s.confirmRestart i e c a) := by
  unfold State.confirmRestart
  refine Acts.trans (t := (s.flushHold i .restart).flushGaps i .restart) ((Acts.flushHold i _ s).trans (.flushGaps i _ _)) ?_
  generalize (s.flushHold i .restart).flushGaps i .restart = u
  exact (((Acts.offer i u _).trans (.setFeedState i _ _)).trans (.promote i c _)).trans (.count i _ _)

theorem Acts.firstArrival (i : FeedId) (a : Arrival) (s : State) : Acts i s (s.firstArrival i a) :=
  (((Acts.create i a false s).trans (.setFeedState i _ _)).trans (.ageGaps i _ _)).trans (.ageHeld i _ _)

theorem Acts.confirmOrPlace (i : FeedId) (e : SeqNum) (a : Arrival) (s : State) : Acts i s (s.confirmOrPlace i e a) := by
  unfold State.confirmOrPlace
  split
  · split
    · exact (Acts.confirmRestart i e _ a s).trans (.place i _ a _)
    · exact .place i e a s
  · exact .place i e a s

theorem Acts.checkLists (i : FeedId) (e : SeqNum) (a : Arrival) (s : State) : Acts i s (s.checkLists i e a) := by
  unfold State.checkLists
  split
  · exact .meetHeld i _ a s
  · split
    · exact .lateFill i a s
    · exact .confirmOrPlace i e a s

theorem Acts.arbitrate (i : FeedId) (e : SeqNum) (a : Arrival) (s : State) : Acts i s (s.arbitrate i e a) := by
  unfold State.arbitrate
  split
  · split
    · exact .meetCandidate i _ a s
    · exact .checkLists i e a s
  · exact .checkLists i e a s

theorem Acts.takeArrival (i : FeedId) (a : Arrival) (s : State) : Acts i s (s.takeArrival i a) := by
  unfold State.takeArrival
  simp only
  have h := (Acts.updateLeg i a.copy.leg a.copy.stamp s).trans (.count i _ (countCopy a.copy.leg))
  split
  · exact h
  · exact h.trans (.firstArrival i a _)
  · exact h.trans (.arbitrate i _ a _)

theorem Acts.expireCandidate (i : FeedId) (s : State) : Acts i s (s.expireCandidate i) := by
  unfold State.expireCandidate
  split
  · split
    · exact .dropCandidate i s
    · exact .refl i s
  · exact .refl i s

theorem Acts.closeFeed (i : FeedId) (s : State) : Acts i s (s.closeFeed i) := by
  unfold State.closeFeed
  refine Acts.trans (t := (s.flushHold i .closed).flushGaps i .closed) ((Acts.flushHold i _ s).trans (.flushGaps i _ _)) ?_
  generalize (s.flushHold i .closed).flushGaps i .closed = u
  refine Acts.trans (t := u.discardCandidate i) ?_ (.onFeed i _ _)
  unfold State.discardCandidate
  split
  · exact .dropCandidate i _
  · exact .refl i _

end Sys2Proof.Machine
end

