-- ==== Sys2Proof/Laws/Balance.lean ====
section
/-! SUPPORT. How the operations of the feed engine move the two sums that R59 says are in balance: what an arrival adds to the copies taken, and what
each outcome takes off again. -/

namespace Sys2Proof.Machine

/-- One while the candidate slot is occupied. -/
def candidateWeight (c : Option HeldRecord) : BitVec 32 := if c.isSome then 1 else 0

/-- Copies taken less the outcomes that account for them (R59). -/
def Feed.copyDebt (f : Feed) : BitVec 32 :=
  f.counters.copiesA + f.counters.copiesB -
    (f.counters.firstCopies + f.counters.twins + f.counters.repeats + f.counters.lateCopies + f.counters.strays +
      candidateWeight f.candidate)

/-- First copies less the records released and held (R59). -/
def Feed.recordDebt (f : Feed) : BitVec 32 :=
  f.counters.firstCopies - (f.counters.wonA + f.counters.wonB + BitVec.ofNat 32 f.hold.length)

theorem Feed.countsCopies_iff (f : Feed) : f.CountsCopies ↔ f.copyDebt = 0 := by
  unfold Feed.CountsCopies Feed.copyDebt candidateWeight
  exact (sub_eq_zero (G := BitVec 32)).symm

theorem Feed.countsRecords_iff (f : Feed) : f.CountsRecords ↔ f.recordDebt = 0 := by
  unfold Feed.CountsRecords Feed.recordDebt
  exact (sub_eq_zero (G := BitVec 32)).symm

/-- An operation on feed i that adds c to the copy debt and r to the record debt. -/
structure Moves (i : FeedId) (s t : State) (c r : BitVec 32) : Prop where
  copies : (t.feed i).copyDebt = (s.feed i).copyDebt + c
  records : (t.feed i).recordDebt = (s.feed i).recordDebt + r

theorem Moves.refl (i : FeedId) (s : State) : Moves i s s 0 0 := ⟨(add_zero _).symm, (add_zero _).symm⟩

theorem Moves.trans {i : FeedId} {s t u : State} {c c' r r' : BitVec 32} (a : Moves i s t c r) (b : Moves i t u c' r') :
    Moves i s u (c + c') (r + r') :=
  ⟨by rw [b.copies, a.copies, add_assoc], by rw [b.records, a.records, add_assoc]⟩

theorem Moves.of_eq {i : FeedId} {s t : State} {c c' r r' : BitVec 32} (a : Moves i s t c r) (hc : c = c') (hr : r = r') :
    Moves i s t c' r' := hc ▸ hr ▸ a

/-- Two still operations, one after the other. -/
theorem Moves.still {i : FeedId} {s t u : State} (a : Moves i s t 0 0) (b : Moves i t u 0 0) : Moves i s u 0 0 :=
  (a.trans b).of_eq (add_zero _) (add_zero _)

theorem Moves.of_feed {i : FeedId} {s t : State} (h : t.feed i = s.feed i) : Moves i s t 0 0 :=
  ⟨by rw [h, add_zero], by rw [h, add_zero]⟩

/-- A feed that keeps its counters, candidate and hold list keeps both sums. -/
theorem Moves.of_parts {i : FeedId} {s t : State} (hc : (t.feed i).counters = (s.feed i).counters)
    (hk : (t.feed i).candidate = (s.feed i).candidate) (hh : (t.feed i).hold = (s.feed i).hold) : Moves i s t 0 0 :=
  ⟨by simp [Feed.copyDebt, hc, hk], by simp [Feed.recordDebt, hc, hh]⟩

theorem Moves.offer (i : FeedId) (s : State) (r : Record) : Moves i s (s.offer r) 0 0 := .of_feed rfl

theorem Moves.offerNow (i : FeedId) (s : State) (b : RecordBody) : Moves i s (s.offerNow b) 0 0 := .of_feed rfl

theorem Moves.setGaps (i : FeedId) (s : State) (l : List GapRange) : Moves i s (s.setGaps i l) 0 0 := by
  apply Moves.of_parts <;> simp [State.setGaps]

theorem Moves.setFeedState (i : FeedId) (s : State) (st : FeedState) : Moves i s (s.setFeedState i st) 0 0 := by
  apply Moves.of_parts <;> simp [State.setFeedState]

theorem Moves.setHold (i : FeedId) (s : State) (l : List HeldRecord) :
    Moves i s (s.setHold i l) 0 (BitVec.ofNat 32 (s.feed i).hold.length - BitVec.ofNat 32 l.length) := by
  constructor
  · simp [State.setHold, Feed.copyDebt]
  · simp only [State.setHold, State.feed_onFeed, Feed.recordDebt]; ring

theorem Moves.count (i : FeedId) (s : State) (g : FeedCounters → FeedCounters) (c r : BitVec 32)
    (hc : ∀ k : FeedCounters, (g k).copiesA + (g k).copiesB - ((g k).firstCopies + (g k).twins + (g k).repeats + (g k).lateCopies + (g k).strays) =
      k.copiesA + k.copiesB - (k.firstCopies + k.twins + k.repeats + k.lateCopies + k.strays) + c)
    (hr : ∀ k : FeedCounters, (g k).firstCopies - ((g k).wonA + (g k).wonB) = k.firstCopies - (k.wonA + k.wonB) + r) :
    Moves i s (s.count i g) c r := by
  constructor
  · have h := hc (s.feed i).counters
    simp only [State.count, State.feed_onFeed, Feed.copyDebt]
    generalize candidateWeight (s.feed i).candidate = w
    rw [← sub_sub, h]; ring
  · have h := hr (s.feed i).counters
    simp only [State.count, State.feed_onFeed, Feed.recordDebt]
    generalize BitVec.ofNat 32 (s.feed i).hold.length = w
    rw [← sub_sub, h]; ring

/-- A counter that R59 does not name. -/
theorem Moves.count_other (i : FeedId) (s : State) (g : FeedCounters → FeedCounters)
    (h : ∀ k : FeedCounters, (g k).copiesA = k.copiesA ∧ (g k).copiesB = k.copiesB ∧ (g k).firstCopies = k.firstCopies ∧ (g k).twins = k.twins ∧
      (g k).repeats = k.repeats ∧ (g k).lateCopies = k.lateCopies ∧ (g k).strays = k.strays ∧ (g k).wonA = k.wonA ∧ (g k).wonB = k.wonB) :
    Moves i s (s.count i g) 0 0 := by
  apply Moves.count
  · intro k; obtain ⟨a, b, c, d, e, f, g', _, _⟩ := h k; rw [a, b, c, d, e, f, g', add_zero]
  · intro k; obtain ⟨_, _, c, _, _, _, _, h', j⟩ := h k; rw [c, h', j, add_zero]

theorem Moves.release (i : FeedId) (st : TwinStatus) (h : HeldRecord) (s : State) : Moves i s (s.release i st h) 0 (-1) := by
  have a : Moves i (s.offer (arrivalRecord i (s.feed i).profile.sendFormat st h)) (s.release i st h) 0 (-1) := by
    unfold State.release
    apply Moves.count <;> intro k <;> cases h.first.leg <;> simp only [countWon] <;> ring
  exact ((Moves.offer i s _).trans a).of_eq (add_zero _) (zero_add _)

theorem Moves.releaseAll (i : FeedId) (rs : List (TwinStatus × HeldRecord)) (s : State) :
    Moves i s (s.releaseAll i rs) 0 (-BitVec.ofNat 32 rs.length) := by
  induction rs generalizing s with
  | nil => exact (Moves.refl i s).of_eq rfl (by simp)
  | cons r rs ih =>
    refine ((Moves.release i r.1 r.2 s).trans (ih _)).of_eq (add_zero _) ?_
    rw [List.length_cons, BitVec.ofNat_add]
    generalize BitVec.ofNat 32 rs.length = x
    show -1 + -x = -(x + 1)
    ring

theorem Moves.declare (i : FeedId) (c : GapCause) (g : GapRange) (s : State) : Moves i s (s.declare i c g) 0 0 :=
  (Moves.offerNow i s _).still (.count_other i _ _ fun _ => ⟨rfl, rfl, rfl, rfl, rfl, rfl, rfl, rfl, rfl⟩)

theorem Moves.declareAll (i : FeedId) (c : GapCause) (gs : List GapRange) (s : State) : Moves i s (s.declareAll i c gs) 0 0 := by
  induction gs generalizing s with
  | nil => exact .refl i s
  | cons g gs ih => exact (Moves.declare i c g s).still (ih _)

/-- Records taken off a hold list and released: both sums are kept. -/
theorem Moves.releaseFrom (i : FeedId) (s : State) (left : List HeldRecord) (rs : List (TwinStatus × HeldRecord))
    (h : (s.feed i).hold.length = rs.length + left.length) : Moves i s ((s.setHold i left).releaseAll i rs) 0 0 := by
  refine ((Moves.setHold i s left).trans (.releaseAll i rs _)).of_eq (add_zero _) ?_
  rw [h, BitVec.ofNat_add]; ring

theorem chain_length (now : LocalCount) (l : List HeldRecord) : l.length = (chainReleased now l).length + (chainLeft now l).length := by
  induction l with
  | nil => rfl
  | cons h t ih =>
    unfold chainReleased chainLeft
    split
    · simp only [List.length_cons]; omega
    · split
      · simp only [List.length_cons]; omega
      · simp

theorem Moves.chain (i : FeedId) (s : State) : Moves i s (s.chain i) 0 0 := .releaseFrom i s _ _ (chain_length _ _)

theorem Moves.flushHold (i : FeedId) (st : TwinStatus) (s : State) : Moves i s (s.flushHold i st) 0 0 :=
  .releaseFrom i s _ _ (by simp)

theorem Moves.flushGaps (i : FeedId) (c : GapCause) (s : State) : Moves i s (s.flushGaps i c) 0 0 :=
  (Moves.setGaps i s _).still (.declareAll i _ _ _)

theorem Moves.expireGaps (i : FeedId) (s : State) : Moves i s (s.expireGaps i) 0 0 := (Moves.setGaps i s _).still (.declareAll i _ _ _)

theorem Moves.expirePairing (i : FeedId) (s : State) : Moves i s (s.expirePairing i) 0 0 := by
  unfold State.expirePairing
  split
  · split
    · exact .chain i s
    · exact .refl i s
  · exact .refl i s

theorem Moves.splitGap (i : FeedId) (n : SeqNum) (b : List GapRange) (g : GapRange) (a : List GapRange) (s : State) :
    Moves i s (s.splitGap i n b g a) 0 0 := by
  unfold State.splitGap
  split
  · exact .setGaps i s _
  · split
    · exact (Moves.setGaps i s _).still (.declare i _ _ _)
    · exact (Moves.setGaps i s _).still (.declare i _ _ _)

theorem Moves.takeFromGap (i : FeedId) (n : SeqNum) (b : List GapRange) (g : GapRange) (a : List GapRange) (s : State) :
    Moves i s (s.takeFromGap i n b g a) 0 0 := by
  unfold State.takeFromGap
  split
  · exact (Moves.setGaps i s _).still (.count_other i _ _ fun _ => ⟨rfl, rfl, rfl, rfl, rfl, rfl, rfl, rfl, rfl⟩)
  · split
    · exact .setGaps i s _
    · split
      · exact .setGaps i s _
      · exact .splitGap i n b g a s

theorem Moves.removeFromGaps (i : FeedId) (n : SeqNum) (s : State) : Moves i s (s.removeFromGaps i n) 0 0 := by
  unfold State.removeFromGaps
  simp only
  split
  · exact .takeFromGap i n _ _ _ s
  · exact .refl i s

theorem Moves.openGap (i : FeedId) (f l : SeqNum) (o : Stamp) (s : State) : Moves i s (s.openGap i f l o) 0 0 := by
  have c : ∀ u : State, Moves i u (u.count i fun c : FeedCounters => { c with gapsOpened := c.gapsOpened + 1 }) 0 0 := fun u =>
    .count_other i u _ fun _ => ⟨rfl, rfl, rfl, rfl, rfl, rfl, rfl, rfl, rfl⟩
  unfold State.openGap
  simp only
  split
  · split
    · exact (Moves.setGaps i s _).still (c _)
    · exact ((Moves.setGaps i s _).still (.declare i _ _ _)).still (c _)
  · exact (Moves.setGaps i s _).still (c _)

theorem Moves.setLeg (i : FeedId) (leg : Leg) (w : LegWatch) (s : State) : Moves i s (s.setFeed i ((s.feed i).setLeg leg w)) 0 0 := by
  apply Moves.of_parts <;> cases leg <;> simp [Feed.setLeg]

theorem Moves.reportLeg (i : FeedId) (leg : Leg) (o n : LegState) (st : Stamp) (s : State) : Moves i s (s.reportLeg i leg o n st) 0 0 :=
  .of_feed rfl

theorem Moves.updateLeg (i : FeedId) (leg : Leg) (st : Stamp) (s : State) : Moves i s (s.updateLeg i leg st) 0 0 := by
  unfold State.updateLeg
  simp only
  split
  · exact .setLeg i leg _ s
  · exact (Moves.setLeg i leg _ s).still (.reportLeg i _ _ _ _ _)

theorem Moves.expireSilence (i : FeedId) (leg : Leg) (s : State) : Moves i s (s.expireSilence i leg) 0 0 := by
  unfold State.expireSilence
  simp only
  split
  · exact (Moves.setLeg i leg _ s).still (.reportLeg i _ _ _ _ _)
  · exact .refl i s

theorem Moves.tookCopy (i : FeedId) (leg : Leg) (s : State) : Moves i s (s.count i (countCopy leg)) 1 0 := by
  apply Moves.count <;> intro k <;> cases leg <;> simp only [countCopy] <;> ring

theorem Moves.countFirst (i : FeedId) (s : State) :
    Moves i s (s.count i fun k => { k with firstCopies := k.firstCopies + 1 }) (-1) 1 := by
  apply Moves.count <;> intro k <;> simp only <;> ring

theorem Moves.bypass (i : FeedId) (h : HeldRecord) (s : State) : Moves i s (s.bypass i h) 0 (-1) := by
  unfold State.bypass
  have a : Moves i s (s.count i fun c => { c with notHeld := c.notHeld + 1 }) 0 0 :=
    .count_other i s _ fun _ => ⟨rfl, rfl, rfl, rfl, rfl, rfl, rfl, rfl, rfl⟩
  generalize (s.count i fun c => { c with notHeld := c.notHeld + 1 }) = u at a
  exact (a.trans (.release i _ _ u)).of_eq (add_zero _) (zero_add _)

theorem Moves.appendHold (i : FeedId) (h : HeldRecord) (s : State) : Moves i s (s.setHold i ((s.feed i).hold ++ [h])) 0 (-1) := by
  refine (Moves.setHold i s _).of_eq rfl ?_
  rw [List.length_append, BitVec.ofNat_add]
  generalize BitVec.ofNat 32 (s.feed i).hold.length = x
  show x - (x + 1) = -1
  ring

theorem Moves.create (i : FeedId) (a : Arrival) (late : Bool) (s : State) : Moves i s (s.create i a late) (-1) 0 := by
  unfold State.create
  simp only
  split
  · exact ((Moves.countFirst i s).trans (.bypass i _ _)).of_eq (by ring) (by ring)
  · exact ((Moves.countFirst i s).trans (.appendHold i _ _)).of_eq (by ring) (by ring)

theorem Moves.met (i : FeedId) (h : HeldRecord) (c : FrameCopy) (s : State) : Moves i s (s.count i (countMeet h c)) (-1) 0 := by
  apply Moves.count <;> intro k <;> unfold countMeet <;> split <;> simp only <;> ring

theorem Moves.setCandidate (i : FeedId) (c : Option HeldRecord) (s : State) :
    Moves i s (s.setCandidate i c) (candidateWeight (s.feed i).candidate - candidateWeight c) 0 := by
  constructor
  · simp only [State.setCandidate, State.feed_onFeed, Feed.copyDebt]; ring
  · simp [State.setCandidate, Feed.recordDebt]

theorem Moves.meetCandidate (i : FeedId) (h : HeldRecord) (a : Arrival) (s : State) (hs : (s.feed i).candidate.isSome = true) :
    Moves i s (s.meetCandidate i h a) (-1) 0 := by
  refine ((Moves.setCandidate i _ s).trans (.met i h a.copy _)).of_eq ?_ (add_zero _)
  simp [candidateWeight, hs]

theorem replaceHeld_length (n : SeqNum) (h : HeldRecord) (l : List HeldRecord) : (replaceHeld n h l).length = l.length := by
  induction l with
  | nil => rfl
  | cons x xs ih => unfold replaceHeld; split <;> simp [ih]

theorem Moves.meetHeld (i : FeedId) (h : HeldRecord) (a : Arrival) (s : State) : Moves i s (s.meetHeld i h a) (-1) 0 := by
  have b : Moves i s ((s.setHold i (replaceHeld a.number (h.meet a.copy) (s.feed i).hold)).count i (countMeet h a.copy)) (-1) 0 :=
    ((Moves.setHold i s _).trans (.met i h a.copy _)).of_eq (zero_add _) (by rw [replaceHeld_length]; ring)
  unfold State.meetHeld
  simp only
  split
  · exact (b.trans (.chain i _)).of_eq (add_zero _) (add_zero _)
  · exact b

theorem Moves.lateFill (i : FeedId) (a : Arrival) (s : State) : Moves i s (s.lateFill i a) (-1) 0 := by
  unfold State.lateFill
  have h := (Moves.removeFromGaps i a.number s).trans (.create i a true _)
  generalize (s.removeFromGaps i a.number).create i a true = u at h
  have c : Moves i u (u.count i fun c => { c with lateFills := c.lateFills + 1 }) 0 0 :=
    .count_other i u _ fun _ => ⟨rfl, rfl, rfl, rfl, rfl, rfl, rfl, rfl, rfl⟩
  exact (h.trans c).of_eq (by ring) (by ring)

theorem Moves.ageGaps (i : FeedId) (e : SeqNum) (s : State) : Moves i s (s.ageGaps i e) 0 0 :=
  (Moves.setGaps i s _).still (.declareAll i _ _ _)

theorem agedPart_length (e : SeqNum) (l : List HeldRecord) : (agedPart e l).length ≤ l.length := by
  induction l with
  | nil => simp [agedPart]
  | cons h t ih => unfold agedPart; split <;> simp [ih]

theorem Moves.ageHeld (i : FeedId) (e : SeqNum) (s : State) : Moves i s (s.ageHeld i e) 0 0 := by
  unfold State.ageHeld
  simp only
  split
  · exact .refl i s
  · refine (Moves.releaseFrom i s _ _ ?_).still (.chain i _)
    have := agedPart_length e (s.feed i).hold
    rw [List.length_map, List.length_drop]; omega

theorem Moves.dropCandidate (i : FeedId) (s : State) (hs : (s.feed i).candidate.isSome = true) : Moves i s (s.dropCandidate i) 0 0 := by
  refine ((Moves.setCandidate i none s).trans (.count i _ _ (-1) 0 ?_ ?_)).of_eq ?_ (add_zero _)
  · intro k; simp only; ring
  · intro k; simp only; ring
  · simp [candidateWeight, hs]

theorem Moves.ageCandidate (i : FeedId) (e : SeqNum) (s : State) : Moves i s (s.ageCandidate i e) 0 0 := by
  unfold State.ageCandidate
  split
  · rename_i c hc
    split
    · exact .refl i s
    · exact .dropCandidate i s (by simp [hc])
  · exact .refl i s

theorem Moves.age (i : FeedId) (e : SeqNum) (s : State) : Moves i s (s.age i e) 0 0 :=
  ((Moves.ageGaps i e s).still (.ageHeld i e _)).still (.ageCandidate i e _)

theorem Moves.inOrder (i : FeedId) (a : Arrival) (s : State) : Moves i s (s.inOrder i a) (-1) 0 :=
  ((Moves.create i a false s).trans ((Moves.setFeedState i _ _).still (.age i _ _))).of_eq (add_zero _) (add_zero _)

theorem Moves.ahead (i : FeedId) (e : SeqNum) (a : Arrival) (s : State) : Moves i s (s.ahead i e a) (-1) 0 :=
  (((Moves.openGap i _ _ _ s).trans (.create i a false _)).trans ((Moves.setFeedState i _ _).still (.age i _ _))).of_eq
    (by ring) (by ring)

theorem Moves.lateCopy (i : FeedId) (s : State) : Moves i s (s.lateCopy i) (-1) 0 := by
  apply Moves.count <;> intro k <;> simp only <;> ring

theorem candidate_dropCandidate (i : FeedId) (s : State) : ((s.dropCandidate i).feed i).candidate = none := by
  simp [State.dropCandidate, State.setCandidate, State.count]

theorem Moves.becomeCandidate (i : FeedId) (a : Arrival) (s : State) : Moves i s (s.becomeCandidate i a) (-1) 0 := by
  unfold State.becomeCandidate
  simp only
  split
  · rename_i c hc
    refine ((Moves.dropCandidate i s (by simp [hc])).trans (.setCandidate i _ _)).of_eq ?_ (add_zero _)
    simp [candidate_dropCandidate, candidateWeight]
  · rename_i hc
    refine (Moves.setCandidate i _ s).of_eq ?_ rfl
    simp [candidateWeight, hc]

theorem Moves.place (i : FeedId) (e : SeqNum) (a : Arrival) (s : State) : Moves i s (s.place i e a) (-1) 0 := by
  unfold State.place
  split
  · exact .inOrder i a s
  · split
    · exact .becomeCandidate i a s
    · split
      · exact .lateCopy i s
      · exact .ahead i e a s

theorem Moves.promote (i : FeedId) (c : HeldRecord) (s : State) (hs : (s.feed i).candidate.isSome = true) :
    Moves i s (s.promote i c) 0 0 := by
  have h : Moves i s ((s.setCandidate i none).count i fun k => { k with firstCopies := k.firstCopies + 1 }) 0 1 :=
    ((Moves.setCandidate i none s).trans (.countFirst i _)).of_eq (by simp [candidateWeight, hs]) (by ring)
  unfold State.promote
  simp only
  split
  · split
    · exact (h.trans (.release i _ _ _)).of_eq (by ring) (by ring)
    · exact (h.trans (.bypass i _ _)).of_eq (by ring) (by ring)
  · exact ((h.trans (.appendHold i _ _)).trans (.chain i _)).of_eq (by ring) (by ring)

theorem candidate_release (i : FeedId) (st : TwinStatus) (h : HeldRecord) (s : State) :
    ((s.release i st h).feed i).candidate = (s.feed i).candidate := by simp [State.release, State.count]

theorem candidate_releaseAll (i : FeedId) (rs : List (TwinStatus × HeldRecord)) (s : State) :
    ((s.releaseAll i rs).feed i).candidate = (s.feed i).candidate := by
  induction rs generalizing s with
  | nil => rfl
  | cons r rs ih => exact (ih _).trans (candidate_release i _ _ s)

theorem candidate_declareAll (i : FeedId) (c : GapCause) (gs : List GapRange) (s : State) :
    ((s.declareAll i c gs).feed i).candidate = (s.feed i).candidate := by
  induction gs generalizing s with
  | nil => rfl
  | cons g gs ih => exact (ih _).trans (by simp [State.declare, State.count])

theorem candidate_flushHold (i : FeedId) (st : TwinStatus) (s : State) : ((s.flushHold i st).feed i).candidate = (s.feed i).candidate := by
  unfold State.flushHold; rw [candidate_releaseAll]; simp [State.setHold]

theorem candidate_flushGaps (i : FeedId) (c : GapCause) (s : State) : ((s.flushGaps i c).feed i).candidate = (s.feed i).candidate := by
  unfold State.flushGaps; rw [candidate_declareAll]; simp [State.setGaps]

theorem Moves.confirmRestart (i : FeedId) (e : SeqNum) (c : HeldRecord) (a : Arrival) (s : State)
    (hs : (s.feed i).candidate.isSome = true) : Moves i s (s.confirmRestart i e c a) 0 0 := by
  have h0 : Moves i s ((s.flushHold i .restart).flushGaps i .restart) 0 0 := (Moves.flushHold i _ s).still (.flushGaps i _ _)
  have hc : (((s.flushHold i .restart).flushGaps i .restart).feed i).candidate.isSome = true := by
    rw [candidate_flushGaps, candidate_flushHold, hs]
  unfold State.confirmRestart
  refine h0.still ?_
  generalize (s.flushHold i .restart).flushGaps i .restart = u at hc
  refine (((Moves.offer i u _).still (.setFeedState i _ _)).still (.promote i c _ ?_)).still
    (.count_other i _ _ fun _ => ⟨rfl, rfl, rfl, rfl, rfl, rfl, rfl, rfl, rfl⟩)
  simpa [State.setFeedState] using hc

theorem Moves.firstArrival (i : FeedId) (a : Arrival) (s : State) : Moves i s (s.firstArrival i a) (-1) 0 :=
  ((Moves.create i a false s).trans (((Moves.setFeedState i _ _).still (.ageGaps i _ _)).still (.ageHeld i _ _))).of_eq
    (add_zero _) (add_zero _)

theorem Moves.confirmOrPlace (i : FeedId) (e : SeqNum) (a : Arrival) (s : State) : Moves i s (s.confirmOrPlace i e a) (-1) 0 := by
  unfold State.confirmOrPlace
  split
  · rename_i c hc
    split
    · exact ((Moves.confirmRestart i e c a s (by simp [hc])).trans (.place i _ a _)).of_eq (zero_add _) (zero_add _)
    · exact .place i e a s
  · exact .place i e a s

theorem Moves.checkLists (i : FeedId) (e : SeqNum) (a : Arrival) (s : State) : Moves i s (s.checkLists i e a) (-1) 0 := by
  unfold State.checkLists
  split
  · exact .meetHeld i _ a s
  · split
    · exact .lateFill i a s
    · exact .confirmOrPlace i e a s

theorem Moves.arbitrate (i : FeedId) (e : SeqNum) (a : Arrival) (s : State) : Moves i s (s.arbitrate i e a) (-1) 0 := by
  unfold State.arbitrate
  split
  · rename_i c hc
    split
    · exact .meetCandidate i c a s (by simp [hc])
    · exact .checkLists i e a s
  · exact .checkLists i e a s

theorem state_updateLeg (i : FeedId) (leg : Leg) (st : Stamp) (s : State) : ((s.updateLeg i leg st).feed i).state = (s.feed i).state := by
  unfold State.updateLeg
  simp only
  split <;> cases leg <;> simp [State.reportLeg, Feed.setLeg]

/-- An arrival of an open feed leaves both sums as they were: what it adds to the copies taken, one outcome accounts for (R59, R63). -/
theorem Moves.takeArrival (i : FeedId) (a : Arrival) (s : State) (h : (s.feed i).state ≠ .closed) : Moves i s (s.takeArrival i a) 0 0 := by
  have m := (Moves.updateLeg i a.copy.leg a.copy.stamp s).trans (.tookCopy i a.copy.leg _)
  have hst : (((s.updateLeg i a.copy.leg a.copy.stamp).count i (countCopy a.copy.leg)).feed i).state = (s.feed i).state := by
    simp [State.count, state_updateLeg]
  unfold State.takeArrival
  simp only
  split
  · rename_i hc; rw [hst] at hc; exact absurd hc h
  · exact (m.trans (.firstArrival i a _)).of_eq (by ring) (by ring)
  · exact (m.trans (.arbitrate i _ a _)).of_eq (by ring) (by ring)

theorem Moves.expireCandidate (i : FeedId) (s : State) : Moves i s (s.expireCandidate i) 0 0 := by
  unfold State.expireCandidate
  split
  · rename_i c hc
    split
    · exact .dropCandidate i s (by simp [hc])
    · exact .refl i s
  · exact .refl i s

theorem Moves.closeFeed (i : FeedId) (s : State) : Moves i s (s.closeFeed i) 0 0 := by
  have h0 : Moves i s ((s.flushHold i .closed).flushGaps i .closed) 0 0 := (Moves.flushHold i _ s).still (.flushGaps i _ _)
  unfold State.closeFeed
  refine h0.still ?_
  generalize (s.flushHold i .closed).flushGaps i .closed = u
  refine Moves.still (t := u.discardCandidate i) ?_ ?_
  · unfold State.discardCandidate
    split
    · rename_i c hc; exact .dropCandidate i _ (by simp [hc])
    · exact .refl i _
  · apply Moves.of_parts <;> simp [Feed.shut]

/-- An event of feed i that leaves both of its sums as they were keeps the balance of R59. -/
theorem State.CountersBalance.of_moves {i : FeedId} {s t : State} (h : s.CountersBalance) (a : Acts i s t) (m : Moves i s t 0 0) :
    t.CountersBalance := by
  intro j
  by_cases hj : i = j
  · subst hj
    rw [Feed.countsCopies_iff, Feed.countsRecords_iff, m.copies, m.records, (Feed.countsCopies_iff _).mp (h i).1,
      (Feed.countsRecords_iff _).mp (h i).2]
    exact ⟨add_zero _, add_zero _⟩
  · rw [a.others j hj]; exact h j

theorem State.CountersBalance.congr {s t : State} (h : s.CountersBalance) (e : t.feeds = s.feeds) : t.CountersBalance := by
  intro j; rw [State.feed_congr e]; exact h j

end Sys2Proof.Machine
end

