-- ==== Sys2Proof/Laws/Events.lean ====
section
/-! SUPPORT. What an event of a line port, and an event of the time base, the monitors and the discipline unit, can change at all. -/

namespace Sys2Proof.Machine

/-! ## Line ports -/

/-- What an event of line port i keeps: all but the port, the arbiter's note of a first append, the queue and the notices; the queue's invariant; and the queue from becoming empty. -/
structure LineActs (i : LineId) (s t : State) : Prop where
  pins : t.pins = s.pins
  resetHold : t.resetHold = s.resetHold
  classifier : t.classifier = { s.classifier with firstIn := t.classifier.firstIn }
  feeds : t.feeds = s.feeds
  time : t.time = s.time
  monitors : t.monitors = s.monitors
  discipline : t.discipline = s.discipline
  link : t.link = s.link
  pending : t.pending = s.pending
  others : ∀ j, i ≠ j → t.line j = s.line j
  queue : s.queue.Sound → t.queue.Sound
  kept : s.queue.entries ≠ [] → t.queue.entries ≠ []

theorem LineActs.refl (i : LineId) (s : State) : LineActs i s s :=
  ⟨rfl, rfl, rfl, rfl, rfl, rfl, rfl, rfl, rfl, fun _ _ => rfl, id, id⟩

theorem LineActs.setLine (i : LineId) (p : LinePort) (s : State) : LineActs i s (s.setLine i p) :=
  ⟨rfl, rfl, rfl, rfl, rfl, rfl, rfl, rfl, rfl, fun _ h => State.line_setLine_ne s p h, id, id⟩

theorem LineActs.changeLine (i : LineId) (c : LineCause) (p : LinePort) (s : State) : LineActs i s (s.changeLine i c p) :=
  ⟨rfl, rfl, rfl, rfl, rfl, rfl, rfl, rfl, rfl, fun _ h => State.line_setLine_ne s p h, fun h => State.offer_sound h _,
    fun _ => RecordQueue.take_ne_nil _ _ _⟩

/-- The arbiter waits exactly while the classifier is free and every FIFO is empty (R31). -/
theorem State.arbiterWaits_iff (s : State) : s.arbiterWaits = true ↔ s.classifier.held = none ∧ ∀ i, (s.line i).fifo = [] := by
  simp only [State.arbiterWaits, Bool.and_eq_true, Option.isNone_iff_eq_none, List.all_eq_true, List.isEmpty_iff]
  exact and_congr_right fun _ => ⟨fun h i => h i (by revert i; decide), fun h i _ => h i⟩

/-- What the note of an append leaves: the line, when the arbiter waits, and otherwise what it was (R31). -/
theorem State.noteAppend_firstIn (i : LineId) (s : State) :
    (s.noteAppend i).classifier.firstIn = if s.arbiterWaits then some i else s.classifier.firstIn := by
  unfold State.noteAppend; split <;> rfl

theorem State.noteAppend_eq (i : LineId) (s : State) :
    s.noteAppend i = { s with classifier := { s.classifier with firstIn := (s.noteAppend i).classifier.firstIn } } := by
  unfold State.noteAppend; split <;> rfl

theorem LineActs.noteAppend (i : LineId) (p : LinePort) (s : State) : LineActs i s ((s.noteAppend i).setLine i p) := by
  rw [State.noteAppend_eq]
  exact ⟨rfl, rfl, rfl, rfl, rfl, rfl, rfl, rfl, rfl, fun _ h => State.line_setLine_ne s p h, id, id⟩

theorem State.line_changeLine (i : LineId) (c : LineCause) (p : LinePort) (s : State) : (s.changeLine i c p).line i = p :=
  State.line_setLine s i p

theorem LineActs.portSignal (i : LineId) (b : Bool) (s : State) : LineActs i s (s.portSignal i b) := by
  unfold State.portSignal
  simp only
  split <;> first | exact .changeLine i _ _ s | exact .setLine i _ s

theorem LineActs.portStart (i : LineId) (s : State) : LineActs i s (s.portStart i) := by
  unfold State.portStart
  split <;> first | exact .refl i s | exact .setLine i _ s

theorem LineActs.portEnd (i : LineId) (good : Bool) (bytes : List Byte) (s : State) : LineActs i s (s.portEnd i good bytes) := by
  unfold State.portEnd
  simp only
  split
  · split
    · exact .setLine i _ s
    · exact .refl i s
  · split
    · split
      · exact .noteAppend i _ s
      · exact .setLine i _ s
    · unfold State.judgeBad
      simp only
      split
      · exact .changeLine i _ _ s
      · exact .setLine i _ s

theorem LineActs.portQuiet (i : LineId) (s : State) : LineActs i s (s.portQuiet i) := by
  unfold State.portQuiet
  simp only
  split
  · exact .changeLine i _ _ s
  · exact .refl i s

/-- A request that a line port carries out acts on the line it names, or on nothing. -/
theorem LineActs.ownEnableLine (p : List Byte) (s : State) :
    (ownEnableLine p s).1 = s ∨ ∃ i, LineActs i s (ownEnableLine p s).1 := by
  unfold Machine.ownEnableLine
  split
  · exact .inl rfl
  · rename_i i _
    right; refine ⟨i, ?_⟩
    simp only
    split
    · split <;> exact .changeLine i _ _ s
    · exact .refl i s
    · exact .refl i s
    · exact .refl i s

theorem LineActs.ownDisableLine (p : List Byte) (s : State) :
    (ownDisableLine p s).1 = s ∨ ∃ i, LineActs i s (ownDisableLine p s).1 := by
  unfold Machine.ownDisableLine
  split
  · exact .inl rfl
  · rename_i i _
    right; refine ⟨i, ?_⟩
    split <;> first | exact .refl i s | exact .changeLine i _ _ s

theorem LineActs.ownConfigureLine (p : List Byte) (s : State) :
    (ownConfigureLine p s).1 = s ∨ ∃ i, LineActs i s (ownConfigureLine p s).1 := by
  unfold Machine.ownConfigureLine
  split
  · exact .inl rfl
  · rename_i i _
    right; refine ⟨i, ?_⟩
    split
    · split
      · exact .setLine i _ s
      · exact .refl i s
    · exact .refl i s

/-! ## Time base, monitors, discipline unit -/

/-- What an event of these blocks keeps: the other blocks, the local count, the queue's invariant, and the queue from becoming empty. -/
structure TimeActs (s t : State) : Prop where
  same : SameButTime s t
  queue : s.queue.Sound → t.queue.Sound
  kept : s.queue.entries ≠ [] → t.queue.entries ≠ []

theorem SameButTime.refl (s : State) : SameButTime s s := ⟨rfl, rfl, rfl, rfl, rfl, rfl, rfl, rfl⟩

theorem SameButTime.trans {s t u : State} (a : SameButTime s t) (b : SameButTime t u) : SameButTime s u :=
  ⟨b.pins.trans a.pins, b.resetHold.trans a.resetHold, b.lines.trans a.lines, b.classifier.trans a.classifier, b.feeds.trans a.feeds,
    b.localCount.trans a.localCount, b.link.trans a.link, b.pending.trans a.pending⟩

theorem TimeActs.refl (s : State) : TimeActs s s := ⟨.refl s, id, id⟩

theorem TimeActs.trans {s t u : State} (a : TimeActs s t) (b : TimeActs t u) : TimeActs s u :=
  ⟨a.same.trans b.same, b.queue ∘ a.queue, b.kept ∘ a.kept⟩

theorem TimeActs.now {s t : State} (a : TimeActs s t) : t.now = s.now := a.same.localCount

/-- An update of these blocks alone. -/
theorem TimeActs.update (s : State) (time : TimeBase) (m : Monitors) (d : Discipline) (h : time.localCount = s.time.localCount) :
    TimeActs s { s with time := time, monitors := m, discipline := d } :=
  ⟨⟨rfl, rfl, rfl, rfl, rfl, h, rfl, rfl⟩, id, id⟩

theorem TimeActs.offerNow (s : State) (b : RecordBody) : TimeActs s (s.offerNow b) :=
  ⟨⟨rfl, rfl, rfl, rfl, rfl, rfl, rfl, rfl⟩, fun h => State.offer_sound h _, fun _ => RecordQueue.take_ne_nil _ _ _⟩

theorem TimeActs.raise (s : State) (id : NoticeId) (x : Summary) : TimeActs s (s.raise id x) :=
  ⟨⟨rfl, rfl, rfl, rfl, rfl, rfl, rfl, rfl⟩, fun h => h, fun h => h⟩

/-- A record offered and a source raised, after an update of these blocks. -/
theorem TimeActs.report {s u : State} (a : TimeActs s u) (b : RecordBody) (id : NoticeId) (x : Summary) :
    TimeActs s ((u.offerNow b).raise id x) := (a.trans (.offerNow u b)).trans (.raise _ id x)

theorem TimeActs.endSlew (c : SlewEndCause) (s : State) : TimeActs s (s.endSlew c) := by
  unfold State.endSlew
  split
  · exact .refl s
  · exact (TimeActs.update s { s.time with slew := none } s.monitors s.discipline rfl).report _ _ _

theorem TimeActs.completeSlew (s : State) : TimeActs s s.completeSlew := by
  unfold State.completeSlew
  split
  · split
    · exact .endSlew _ s
    · exact .refl s
  · exact .refl s

/-- The end of a slew in flight, with its record and its raise (R128, R134). -/
theorem State.endSlew_of {s : State} {sl : SlewFlight} (h : s.time.slew = some sl) (c : SlewEndCause) :
    s.endSlew c = ({ s with time := { s.time with slew := none } }.offerNow
      (.slewEnd (sl.endCause c) sl.requested sl.appliedQuarters sl.rate)).raise .opDone .empty := by
  unfold State.endSlew; rw [h]

/-- Without a slew in flight there is none to end. -/
theorem State.endSlew_of_none {s : State} (h : s.time.slew = none) (c : SlewEndCause) : s.endSlew c = s := by
  unfold State.endSlew; rw [h]

/-- A completion is due only at the goal (R127). -/
theorem State.completeSlew_of_short {s : State} (h : ∀ sl, s.time.slew = some sl → sl.applied ≠ sl.goal) : s.completeSlew = s := by
  unfold State.completeSlew
  split
  · rename_i sl hs; rw [if_neg (h sl hs)]
  · rfl

/-- After a completion that is due no slew is in flight at its goal. -/
theorem State.completeSlew_short (s : State) : ∀ sl, s.completeSlew.time.slew = some sl → sl.applied ≠ sl.goal := by
  unfold State.completeSlew State.endSlew
  split
  · rename_i sl hs
    by_cases hg : sl.applied = sl.goal
    · rw [if_pos hg, hs]; nofun
    · rw [if_neg hg, hs]; intro sl' h; injection h with h; rw [← h]; exact hg
  · rename_i hs; rw [hs]; nofun

theorem TimeActs.changeTime (new : TimeState) (c : StateCause) (s : State) : TimeActs s (s.changeTime new c) := by
  unfold State.changeTime
  simp only
  have h : TimeActs s (if new = TimeState.tracking then s.endSlew .tracking else s) := by
    split
    · exact .endSlew _ s
    · exact .refl s
  generalize (if new = TimeState.tracking then s.endSlew .tracking else s) = u at h
  exact (h.trans (.update u { u.time with state := new, p := 0 } u.monitors { u.discipline with
    holdoverEntry := if new = TimeState.holdover then some u.now else none } rfl)).report _ _ _

theorem TimeActs.stepTo (c : StepCause) (v : TimeValue) (s : State) : TimeActs s (s.stepTo c v) := by
  unfold State.stepTo
  simp only
  have h := TimeActs.completeSlew s
  generalize s.completeSlew = u at h
  exact h.trans (TimeActs.trans (TimeActs.trans (.update u { u.time with value := v, sub := 0, epoch := u.time.epoch + 1 } u.monitors u.discipline rfl)
    (.offerNow _ _)) (.endSlew _ _))

theorem TimeActs.stepBy (c : StepCause) (d : Int) (s : State) : TimeActs s (s.stepBy c d) := .stepTo c _ s

theorem TimeActs.setMonitor (r : RefId) (x : Monitor) (s : State) : TimeActs s (s.setMonitor r x) :=
  .update s s.time (s.monitors.set r x) s.discipline rfl

theorem TimeActs.setWatch (r : RefId) (w : Watch) (s : State) : TimeActs s (s.setWatch r w) := .setMonitor r _ s

theorem TimeActs.changeMonitor (r : RefId) (w : Watch) (c : MonitorCause) (s : State) : TimeActs s (s.changeMonitor r w c) :=
  (TimeActs.setWatch r w s).report _ _ _

theorem TimeActs.follow (e : ChoiceEvent) (new : Option RefId) (s : State) : TimeActs s (s.follow e new) := by
  unfold State.follow
  simp only
  split
  · exact .refl s
  · have h := TimeActs.trans (.update s s.time s.monitors { s.discipline with followed := new } rfl)
      (.offerNow _ (.switch s.discipline.followed new (switchCause e new)))
    split
    · exact h.trans (.update _ { s.time with p := 0 } _ _ rfl)
    · exact h

theorem TimeActs.moveState (s : State) : TimeActs s s.moveState := by
  unfold State.moveState
  split
  · exact .refl s
  · exact .changeTime _ _ s
  · exact .changeTime _ _ s
  · exact .changeTime _ _ s
  · split <;> exact .changeTime _ _ s
  · split
    · exact .changeTime _ _ s
    · exact .refl s
  · exact .refl s
  · exact .refl s

theorem TimeActs.rechoose (e : ChoiceEvent) (s : State) : TimeActs s (s.rechoose e) := (TimeActs.follow e _ s).trans (.moveState _)

theorem TimeActs.endMeasure (c : MeasureCause) (s : State) : TimeActs s (s.endMeasure c) := by
  unfold State.endMeasure
  split
  · exact .refl s
  · exact (TimeActs.update s s.time s.monitors { s.discipline with measurement := none } rfl).report _ _ _

theorem TimeActs.endMeasureOn (r : RefId) (c : MeasureCause) (s : State) : TimeActs s (s.endMeasureOn r c) := by
  unfold State.endMeasureOn
  split
  · split
    · exact .endMeasure c s
    · exact .refl s
  · exact .refl s

theorem TimeActs.measurePulse (r : RefId) (s : State) : TimeActs s (s.measurePulse r) := by
  unfold State.measurePulse
  split
  · exact .refl s
  · rename_i m _
    split
    · have h := TimeActs.update s s.time s.monitors { s.discipline with measurement := some (m.takePulse s.now) } rfl
      simp only
      split
      · exact h.trans (.endMeasure _ _)
      · exact h
    · exact .refl s

theorem TimeActs.trackingLaw (e : Int) (s : State) : TimeActs s (s.trackingLaw e) := by
  unfold State.trackingLaw
  simp only
  split
  · exact .update s _ s.monitors s.discipline rfl
  · split
    · have h := TimeActs.stepBy .discipline (-e) s
      generalize s.stepBy .discipline (-e) = u at h
      exact h.trans (.update u { u.time with p := 0 } u.monitors u.discipline rfl)
    · exact .update s _ s.monitors _ rfl

theorem TimeActs.disciplinePulse (r : RefId) (e : Int) (s : State) : TimeActs s (s.disciplinePulse r e) := by
  unfold State.disciplinePulse
  split
  · exact .trackingLaw e s
  · exact .refl s

theorem TimeActs.loseMonitor (r : RefId) (c : MonitorCause) (s : State) : TimeActs s (s.loseMonitor r c) :=
  ((TimeActs.changeMonitor r _ c s).trans (.rechoose _ _)).trans (.endMeasureOn r _ _)

theorem TimeActs.timeoutMonitor (r : RefId) (s : State) : TimeActs s (s.timeoutMonitor r) := by
  unfold State.timeoutMonitor
  split
  · exact .loseMonitor r _ s
  · exact .refl s

theorem TimeActs.countEarly (r : RefId) (s : State) : TimeActs s (s.countEarly r) := .setMonitor r _ s

theorem TimeActs.acceptQualified (r : RefId) (e : Int) (s : State) : TimeActs s (s.acceptQualified r e) :=
  (TimeActs.disciplinePulse r e s).trans (.measurePulse r _)

theorem TimeActs.judgePulse (r : RefId) (e : Int) (s : State) : TimeActs s (s.judgePulse r e) := by
  unfold State.judgePulse
  split
  · exact .refl s
  · exact (TimeActs.changeMonitor r _ _ s).trans (.rechoose _ _)
  · split
    · split
      · exact (((TimeActs.completeSlew s).trans (.changeMonitor r _ _ _)).trans (.rechoose _ _)).trans (.acceptQualified r e _)
      · exact .setWatch r _ s
    · exact .setWatch r _ s
  · split
    · exact (TimeActs.setWatch r _ s).trans (.acceptQualified r e _)
    · split
      · exact (TimeActs.countEarly r s).trans (.loseMonitor r _ _)
      · exact (TimeActs.countEarly r s).trans (.setWatch r _ _)

theorem TimeActs.takePulse (r : RefId) (edge : Edge) (s : State) : TimeActs s (s.takePulse r edge) := by
  unfold State.takePulse
  split
  · have h : TimeActs s (if s.overdue r then s.loseMonitor r .timeout else s) := by
      split
      · exact .loseMonitor r _ s
      · exact .refl s
    exact h.trans (.judgePulse r _ _)
  · exact .refl s

theorem TimeActs.expireHoldover (s : State) : TimeActs s s.expireHoldover := by
  unfold State.expireHoldover
  split
  · exact .changeTime _ _ s
  · exact .refl s

theorem TimeActs.ownSetTime (p : List Byte) (s : State) : TimeActs s (ownSetTime p s).1 := by
  unfold Machine.ownSetTime
  split
  · exact .refl s
  · simp only
    split
    · exact (TimeActs.stepTo _ _ s).trans (.changeTime _ _ _)
    · exact .stepTo _ _ s

theorem TimeActs.ownAdjustTime (p : List Byte) (s : State) : TimeActs s (ownAdjustTime p s).1 := by
  unfold Machine.ownAdjustTime
  simp only
  split
  · exact .refl s
  · split
    · exact .refl s
    · exact .stepBy _ _ s

theorem TimeActs.startSlew (a : Int) (r : Nat) (s : State) : TimeActs s (s.startSlew a r) :=
  .update s { s.time with slew := some { requested := a, applied := 0, rate := r } } s.monitors s.discipline rfl

theorem TimeActs.ownSlew (p : List Byte) (s : State) : TimeActs s (ownSlew p s).1 := by
  unfold Machine.ownSlew
  simp only
  split
  · exact .refl s
  · split
    · exact .endSlew _ s
    · split
      · exact (TimeActs.endSlew _ s).trans (.startSlew _ _ _)
      · exact .refl s

theorem TimeActs.ownSetRate (p : List Byte) (s : State) : TimeActs s (ownSetRate p s).1 := by
  unfold Machine.ownSetRate
  simp only
  split
  · exact .refl s
  · split
    · exact .update s _ s.monitors s.discipline rfl
    · exact .refl s

theorem TimeActs.ownConfigureReference (p : List Byte) (s : State) : TimeActs s (ownConfigureReference p s).1 := by
  unfold Machine.ownConfigureReference
  split
  · exact .refl s
  · rename_i q _
    simp only
    have h := TimeActs.setMonitor q.ref { s.monitor q.ref with enable := q.enable, deskew := q.deskew, edge := q.edge } s
    split
    · exact h
    · exact h.trans (((TimeActs.changeMonitor _ _ _ _).trans (.rechoose _ _)).trans (.endMeasureOn _ _ _))

theorem TimeActs.ownConfigureDiscipline (p : List Byte) (s : State) : TimeActs s (ownConfigureDiscipline p s).1 := by
  unfold Machine.ownConfigureDiscipline
  split
  · exact .refl s
  · split
    · exact .refl s
    · rename_i d _
      exact (((TimeActs.update s s.time s.monitors { s.discipline with params := d } rfl).trans (.timeoutMonitor .a _)).trans
        (.timeoutMonitor .b _)).trans (.expireHoldover _)

theorem TimeActs.setPolicy (policy : Policy) (s : State) : TimeActs s (s.setPolicy policy) :=
  .update s s.time s.monitors { s.discipline with policy := policy } rfl

theorem TimeActs.ownTrack (p : List Byte) (s : State) : TimeActs s (ownTrack p s).1 := by
  unfold Machine.ownTrack
  split
  · exact .refl s
  · exact ((TimeActs.completeSlew s).trans (.setPolicy _ _)).trans (.rechoose _ _)

theorem TimeActs.ownMeasure (p : List Byte) (s : State) : TimeActs s (ownMeasure p s).1 := by
  unfold Machine.ownMeasure
  simp only
  split
  · exact .refl s
  · split
    · exact .endMeasure _ s
    · split
      · split
        · exact .refl s
        · split
          · exact .update s s.time s.monitors _ rfl
          · exact .refl s
      · exact .refl s

end Sys2Proof.Machine
end

