-- ==== Sys2Proof/Laws/Requests.lean ====
section
/-! SUPPORT. What the way of a request through the link keeps: a property that no change of the link interface or of the notice table touches is kept
by a request when its owning block keeps it. -/

namespace Sys2Proof.Machine

/-- A property of the other blocks: no change of the link interface or of the notice table touches it. -/
structure LinkBlind (P : State → Prop) : Prop where
  link : ∀ s l, P s → P { s with link := l }
  notices : ∀ s n, P s → P { s with notices := n }

theorem LinkBlind.queueResult {P : State → Prop} (b : LinkBlind P) (r : Result) {s : State} (h : P s) : P (s.queueResult r) := by
  unfold State.queueResult
  split
  · exact b.link s _ h
  · exact h

theorem LinkBlind.answer {P : State → Prop} (b : LinkBlind P) (k tag : Byte) (r : Reply) {s : State} (h : P s) : P (s.answer k tag r) :=
  b.queueResult _ h

theorem LinkBlind.owe {P : State → Prop} (b : LinkBlind P) {s : State} (h : P s) : P s.owe := by
  unfold State.owe
  split
  · exact b.link s _ h
  · exact h

theorem LinkBlind.linkError {P : State → Prop} (b : LinkBlind P) {s : State} (h : P s) : P s.linkError := b.notices _ _ (b.link s _ h)

theorem LinkBlind.setFramer {P : State → Prop} (b : LinkBlind P) (f : Framer) {s : State} (h : P s) : P (s.setFramer f) := b.link s _ h

theorem LinkBlind.setEngine {P : State → Prop} (b : LinkBlind P) (e : Engine) {s : State} (h : P s) : P (s.setEngine e) := b.link s _ h

theorem LinkBlind.setUp {P : State → Prop} (b : LinkBlind P) (up : Bool) {s : State} (h : P s) : P (s.setUp up) := b.link s _ h

theorem LinkBlind.judgeFrame {P : State → Prop} (b : LinkBlind P) (payload : List Byte) (act : State → State)
    (ha : ∀ u, P u → P (act u)) {s : State} (h : P s) : P (s.judgeFrame payload act) := by
  unfold State.judgeFrame
  split
  · exact b.linkError h
  · exact ha _ (b.owe h)

theorem LinkBlind.arrive {P : State → Prop} (b : LinkBlind P) (payload : List Byte) (act : State → State)
    (ha : ∀ u, P u → P (act u)) {s : State} (h : P s) : P (s.arrive payload act) := by
  unfold State.arrive
  split
  · exact h
  · exact b.judgeFrame payload act ha (b.setFramer _ h)
  · exact b.judgeFrame payload act ha (b.setFramer _ h)

theorem LinkBlind.checkLength {P : State → Prop} (b : LinkBlind P) (k tag : Byte) (payload : List Byte) (act : State → State)
    (ha : ∀ u, P u → P (act u)) {s : State} (h : P s) : P (s.checkLength k tag payload act) := by
  unfold State.checkLength
  split
  · exact ha s h
  · exact b.answer _ _ _ h

/-- The request engine keeps what the owning block keeps (R181, R182). -/
theorem LinkBlind.engage {P : State → Prop} (b : LinkBlind P) (k tag : Byte) (own : State → State × Reply) (ho : ∀ u, P u → P (own u).1)
    {s : State} (h : P s) : P (s.engage k tag own) := by
  unfold State.engage
  split
  · exact b.answer _ _ _ (ho s h)
  · exact b.answer _ _ _ h
  · exact b.answer _ _ _ h

/-- A request in EXECUTING has touched nothing yet (R181). -/
theorem LinkBlind.handToOwner {P : State → Prop} (b : LinkBlind P) (k tag : Byte) (payload : List Byte) {s : State} (h : P s) :
    P (s.handToOwner k tag payload) := by
  unfold State.handToOwner
  split
  · exact b.setEngine _ h
  · exact b.answer _ _ _ h
  · exact b.answer _ _ _ h

/-- A request that waited in EXECUTING keeps what its owning block keeps (R181, R182, R185). -/
theorem LinkBlind.finish {P : State → Prop} (b : LinkBlind P) (r : Request) (own : State → State × Reply) (ho : ∀ u, P u → P (own u).1)
    {s : State} (h : P s) : P (s.finish r own) := by
  unfold State.finish
  split
  · exact b.setUp _ (b.answer _ _ _ (ho _ (b.setUp _ (b.setEngine _ h))))
  · exact b.answer _ _ _ (ho _ (b.setEngine _ h))

/-- A request keeps what its owning block keeps (R178 to R182). -/
theorem LinkBlind.request {P : State → Prop} (b : LinkBlind P) (k : Byte) (own : List Byte → State → State × Reply) (tag : Byte)
    (payload : List Byte) (ho : ∀ u, P u → P (own payload u).1) {s : State} (h : P s) : P (s.request k own tag payload) := by
  exact b.arrive payload _ (fun u hu => b.checkLength _ _ _ _ (fun v hv => b.engage _ _ _ ho hv) hu) h

theorem LinkBlind.endFetch {P : State → Prop} (b : LinkBlind P) (c : FetchEnd) (f : Fetch) {s : State} (h : P s) : P (s.endFetch c f) := by
  unfold State.endFetch
  have h0 := b.answer fetchKind f.tag (.ok (s.fetchFields c f)) (b.setEngine .idle h)
  generalize (s.setEngine .idle).answer fetchKind f.tag (.ok (s.fetchFields c f)) = u at h0
  generalize f.halts = tags
  induction tags generalizing u with
  | nil => exact h0
  | cons t ts ih => exact ih _ (b.answer _ _ _ h0)

theorem LinkBlind.fetchLooks {P : State → Prop} (b : LinkBlind P) (f : Fetch) {s : State} (h : P s) : P (s.fetchLooks f) := by
  unfold State.fetchLooks
  repeat' split
  all_goals first | exact b.endFetch _ _ h | exact b.setEngine _ h

theorem LinkBlind.takeFetch {P : State → Prop} (b : LinkBlind P) (tag : Byte) (payload : List Byte) {s : State} (h : P s) :
    P (s.takeFetch tag payload) := by
  refine b.arrive payload _ (fun u hu => b.checkLength _ _ _ _ (fun v hv => ?_) hu) h
  unfold State.engageFetch
  split
  · split
    · exact b.fetchLooks _ hv
    · exact hv
  · exact b.answer _ _ _ hv
  · exact b.answer _ _ _ hv

theorem LinkBlind.takeHalt {P : State → Prop} (b : LinkBlind P) (tag : Byte) (payload : List Byte) {s : State} (h : P s) :
    P (s.takeHalt tag payload) := by
  refine b.arrive payload _ (fun u hu => b.checkLength _ _ _ _ (fun v hv => ?_) hu) h
  unfold State.engageHalt
  split
  · exact b.answer _ _ _ hv
  · exact b.answer _ _ _ hv
  · unfold State.haltFetch
    simp only
    split
    · exact b.setEngine _ hv
    · exact b.endFetch _ _ hv

theorem LinkBlind.takeUnknown {P : State → Prop} (b : LinkBlind P) (k tag : Byte) (payload : List Byte) {s : State} (h : P s) :
    P (s.takeUnknown k tag payload) := b.arrive payload _ (fun _ hu => b.answer _ _ _ hu) h

theorem LinkBlind.takeSetNotices {P : State → Prop} (b : LinkBlind P) (tag : Byte) (payload : List Byte) {s : State} (h : P s) :
    P (s.takeSetNotices tag payload) := b.request _ _ _ _ (fun u hu => b.notices u _ hu) h

theorem LinkBlind.takeRestart {P : State → Prop} (b : LinkBlind P) (tag : Byte) (payload : List Byte) {s : State} (h : P s) :
    P (s.takeRestart tag payload) := b.request _ _ _ _ (fun u hu => b.link u _ hu) h

/-- A query, or any request whose owning block changes nothing. -/
theorem LinkBlind.query {P : State → Prop} (b : LinkBlind P) (k : Byte) (own : List Byte → State → State × Reply) (tag : Byte)
    (payload : List Byte) (ho : ∀ u, (own payload u).1 = u) {s : State} (h : P s) : P (s.request k own tag payload) :=
  b.request k own tag payload (fun u hu => by rw [ho u]; exact hu) h

theorem ownQueryLine_fst (p : List Byte) (s : State) : (ownQueryLine p s).1 = s := by unfold ownQueryLine; split <;> rfl

theorem ownReadSelector_fst (p : List Byte) (s : State) : (ownReadSelector p s).1 = s := by unfold ownReadSelector; split <;> rfl

theorem ownQueryFeed_fst (p : List Byte) (s : State) : (ownQueryFeed p s).1 = s := by unfold ownQueryFeed; split <;> rfl

theorem ownReadTime_fst (p : List Byte) (s : State) : (ownReadTime p s).1 = s := rfl

theorem ownStatus_fst (p : List Byte) (s : State) : (ownStatus p s).1 = s := rfl

/-- What the owning blocks of the requests keep of a property: enough for it to be kept by every request frame. -/
structure OwnersKeep (P : State → Prop) : Prop extends LinkBlind P where
  enableLine : ∀ p s, P s → P (ownEnableLine p s).1
  disableLine : ∀ p s, P s → P (ownDisableLine p s).1
  configureLine : ∀ p s, P s → P (ownConfigureLine p s).1
  writeSelector : ∀ p s, P s → P (ownWriteSelector p s).1
  clearSelector : ∀ p s, P s → P (ownClearSelector p s).1
  configureFeed : ∀ p s, P s → P (ownConfigureFeed p s).1
  openFeed : ∀ p s, P s → P (ownOpenFeed p s).1
  closeFeed : ∀ p s, P s → P (ownCloseFeed p s).1
  setTime : ∀ p s, P s → P (ownSetTime p s).1
  adjustTime : ∀ p s, P s → P (ownAdjustTime p s).1
  slew : ∀ p s, P s → P (ownSlew p s).1
  setRate : ∀ p s, P s → P (ownSetRate p s).1
  configureReference : ∀ p s, P s → P (ownConfigureReference p s).1
  configureDiscipline : ∀ p s, P s → P (ownConfigureDiscipline p s).1
  track : ∀ p s, P s → P (ownTrack p s).1
  measure : ∀ p s, P s → P (ownMeasure p s).1
  configureQueue : ∀ p s, P s → P (ownConfigureQueue p s).1

/-- What every owning block keeps, the owner of a kind keeps. -/
theorem OwnersKeep.ownOf {P : State → Prop} (o : OwnersKeep P) (k : Byte) (p : List Byte) (s : State) (h : P s) :
    P (ownOf k p s).1 := by
  unfold Machine.ownOf
  split
  · exact o.enableLine p s h
  · exact o.disableLine p s h
  · exact o.configureLine p s h
  · rw [ownQueryLine_fst]; exact h
  · exact o.writeSelector p s h
  · exact o.clearSelector p s h
  · rw [ownReadSelector_fst]; exact h
  · exact o.configureFeed p s h
  · exact o.openFeed p s h
  · exact o.closeFeed p s h
  · rw [ownQueryFeed_fst]; exact h
  · exact o.setTime p s h
  · exact o.adjustTime p s h
  · exact o.slew p s h
  · exact o.setRate p s h
  · rw [ownReadTime_fst]; exact h
  · exact o.configureReference p s h
  · exact o.configureDiscipline p s h
  · exact o.track p s h
  · exact o.measure p s h
  · exact o.configureQueue p s h
  · exact o.notices s _ h
  · rw [ownStatus_fst]; exact h
  · exact o.link s _ h
  · exact h

theorem LinkBlind.takeFrameWith {P : State → Prop} (b : LinkBlind P) (engage : State → State) (he : ∀ u, P u → P (engage u)) (k tag : Byte)
    (p : List Byte) {s : State} (h : P s) : P (s.takeFrameWith engage k tag p) := by
  unfold State.takeFrameWith
  split
  · exact b.takeFetch tag p h
  · split
    · exact b.takeHalt tag p h
    · split
      · exact b.takeUnknown k tag p h
      · exact b.arrive p _ (fun u hu => b.checkLength _ _ _ _ he hu) h

theorem OwnersKeep.takeFrame {P : State → Prop} (o : OwnersKeep P) (k tag : Byte) (p : List Byte) {s : State} (h : P s) :
    P (s.takeFrame k tag p) :=
  o.toLinkBlind.takeFrameWith _ (fun _ hu => o.toLinkBlind.engage _ _ _ (o.ownOf k p) hu) k tag p h

theorem LinkBlind.takeLaneFrame {P : State → Prop} (b : LinkBlind P) (k tag : Byte) (p : List Byte) {s : State} (h : P s) :
    P (s.takeLaneFrame k tag p) := b.takeFrameWith _ (fun _ hu => b.handToOwner k tag p hu) k tag p h

theorem LinkBlind.takeByte {P : State → Prop} (b : LinkBlind P) (x : Byte) {s : State} (h : P s) : P (s.takeByte x) := by
  unfold State.takeByte
  split
  · exact h
  · split
    · exact b.setFramer _ h
    · exact h
  · unfold State.collect
    repeat' split
    · exact b.linkError (b.setFramer _ h)
    · exact b.takeLaneFrame _ _ _ (b.setFramer _ h)
    · exact b.linkError (b.setFramer _ h)
    · exact b.setFramer _ h

theorem LinkBlind.foldBytes {P : State → Prop} (b : LinkBlind P) (bytes : List Byte) {s : State} (h : P s) :
    P (bytes.foldl (fun t c => t.takeByte c) s) := by
  induction bytes generalizing s with
  | nil => exact h
  | cons x xs ih => exact ih (b.takeByte x h)

theorem LinkBlind.takeBytes {P : State → Prop} (b : LinkBlind P) (bytes : List Byte) {s : State} (h : P s) : P (s.takeBytes bytes) := by
  unfold State.takeBytes
  split
  · exact b.foldBytes bytes h
  · exact h

/-! ## Steps -/

theorem whenReleased_next {f : State → State} {s t : State} (h : whenReleased f s = .next t) :
    t = if s.resetHold.held then s else f s := by
  unfold whenReleased at h; injection h with h; exact h.symm

/-- What an event of a released part keeps, the event of the part in reset keeps (R192). -/
theorem whenReleased_keeps {P : State → Prop} {f : State → State} {s t : State} (hf : P (f s)) (h : P s)
    (e : whenReleased f s = .next t) : P t := by
  rw [whenReleased_next e]; split
  · exact h
  · exact hf

end Sys2Proof.Machine
end

