-- ==== Sys2Proof/Laws/Steps.lean ====
section
/-! SUPPORT. From the events to the step: a property that every event keeps is kept by every command and every step; and what the events that are
neither a line port's nor the time base's leave alone. -/

namespace Sys2Proof.Machine

/-- What every event of the part keeps of a property: enough for it to be kept by every command and every step. -/
structure EventsKeep (P : State → Prop) : Prop extends OwnersKeep P where
  pins : ∀ s p, P s → P {s with pins := p}
  portSignal : ∀ i b s, P s → P (s.portSignal i b)
  portStart : ∀ i s, P s → P (s.portStart i)
  portEnd : ∀ i g b s, P s → P (s.portEnd i g b)
  portQuiet : ∀ i s, P s → P (s.portQuiet i)
  grant : ∀ s, P s → P s.grant
  handOver : ∀ s, P s → P s.handOver
  expirePairing : ∀ i s, P s → P (s.expirePairing i)
  expireGaps : ∀ i s, P s → P (s.expireGaps i)
  expireCandidate : ∀ i s, P s → P (s.expireCandidate i)
  expireSilence : ∀ i l s, P s → P (s.expireSilence i l)
  expireStats : ∀ s, P s → P s.expireStats
  takePulse : ∀ r e s, P s → P (s.takePulse r e)
  timeoutMonitor : ∀ r s, P s → P (s.timeoutMonitor r)
  expireHoldover : ∀ s, P s → P s.expireHoldover
  completeSlew : ∀ s, P s → P s.completeSlew
  completeRecord : ∀ s, P s → P s.completeRecord
  fresh : ∀ p h c q, P (State.fresh p h c q)
  restartBlocks : ∀ s, P s → P s.restartBlocks
  elapse : ∀ s, P s → P (s.elapse 1)
  pending : ∀ s q, P s → P {s with pending := q}

theorem EventsKeep.choose {P} (o : EventsKeep P) {s : State} (h : P s) : P s.choose := by
  unfold State.choose
  split
  · exact o.link _ _ h
  · split
    · exact o.link _ _ h
    · split
      · exact o.link _ _ (o.notices _ _ h)
      · unfold State.chooseRecord; repeat' split
        all_goals first | exact h | exact o.link _ _ h

theorem EventsKeep.exec {P} (o : EventsKeep P) (c : Instr) {s t : State} (h : P s) (e : exec c s = .next t) : P t := by
  have b := o.toLinkBlind
  cases c <;> simp only [Machine.exec] at e
  case lineSignalChange i v =>
    unfold execLineSignalChange at e; injection e with e; rw [← e]; split
    · exact o.pins _ _ h
    · exact o.portSignal _ _ _ (o.pins _ _ h)
  case linkDown =>
    unfold execLinkDown at e; injection e with e; rw [← e]; split
    · exact o.pins _ _ h
    · have h1 : P (s.setLinkSd false) := o.pins _ _ h
      unfold State.dropLink; split
      · have h2 := o.notices (s.setLinkSd false) (s.notices.abandon s.link.outFrame) h1
        exact o.link _ s.link.drop h2
      · exact h1
  case linkUp =>
    unfold execLinkUp at e; injection e with e; rw [← e]; split
    · exact o.pins _ _ h
    · exact o.link (s.setLinkSd true) _ (o.pins _ _ h)
  case powerOn => injection e with e; rw [← e]; exact o.fresh _ _ _ _
  case lineReset => injection e with e; rw [← e]; exact o.fresh _ _ _ _
  case supplyDip => injection e with e; rw [← e]; exact o.fresh _ _ _ _
  case resetRelease =>
    unfold execResetRelease at e; injection e with e; rw [← e]; split
    · exact o.fresh _ _ _ _
    · exact h
  all_goals refine whenReleased_keeps ?_ h e
  case startOfFrame => exact o.portStart _ _ h
  case endOfFrame => exact o.portEnd _ _ _ _ h
  case quietTimerExpiry => exact o.portQuiet _ _ h
  case ingressGrant => exact o.grant _ h
  case handOver => exact o.handOver _ h
  case pairingTimerExpiry => exact o.expirePairing _ _ h
  case gapTimerExpiry => exact o.expireGaps _ _ h
  case candidateExpiry => exact o.expireCandidate _ _ h
  case silenceDeadlineExpiry => exact o.expireSilence _ _ _ h
  case statisticsTimerExpiry => exact o.expireStats _ h
  case referencePulse => exact o.takePulse _ _ _ h
  case referenceTimeout => exact o.timeoutMonitor _ _ h
  case holdoverTimerExpiry => exact o.expireHoldover _ h
  case slewComplete => exact o.completeSlew _ h
  case enableLine => exact b.request _ _ _ _ (o.enableLine _) h
  case disableLine => exact b.request _ _ _ _ (o.disableLine _) h
  case configureLine => exact b.request _ _ _ _ (o.configureLine _) h
  case queryLine => exact b.query _ _ _ _ (ownQueryLine_fst _) h
  case writeSelector => exact b.request _ _ _ _ (o.writeSelector _) h
  case clearSelector => exact b.request _ _ _ _ (o.clearSelector _) h
  case readSelector => exact b.query _ _ _ _ (ownReadSelector_fst _) h
  case configureFeed => exact b.request _ _ _ _ (o.configureFeed _) h
  case openFeed => exact b.request _ _ _ _ (o.openFeed _) h
  case closeFeed => exact b.request _ _ _ _ (o.closeFeed _) h
  case queryFeed => exact b.query _ _ _ _ (ownQueryFeed_fst _) h
  case setTime => exact b.request _ _ _ _ (o.setTime _) h
  case adjustTime => exact b.request _ _ _ _ (o.adjustTime _) h
  case slew => exact b.request _ _ _ _ (o.slew _) h
  case setRate => exact b.request _ _ _ _ (o.setRate _) h
  case readTime => exact b.query _ _ _ _ (ownReadTime_fst _) h
  case configureReference => exact b.request _ _ _ _ (o.configureReference _) h
  case configureDiscipline => exact b.request _ _ _ _ (o.configureDiscipline _) h
  case track => exact b.request _ _ _ _ (o.track _) h
  case measure => exact b.request _ _ _ _ (o.measure _) h
  case configureQueue => exact b.request _ _ _ _ (o.configureQueue _) h
  case fetch => exact b.takeFetch _ _ h
  case halt => exact b.takeHalt _ _ h
  case setNotices => exact b.takeSetNotices _ _ h
  case status => exact b.query _ _ _ _ (ownStatus_fst _) h
  case restart => exact b.takeRestart _ _ h
  case unknownKind => exact o.takeFrame _ _ _ h
  case inboundFrameDiscard => exact b.takeBytes _ h
  case outboundChoice => split <;> first | exact o.choose h | exact h
  case resultFrameComplete =>
    unfold State.completeResult; repeat' split
    all_goals first | exact h | exact o.link _ _ h
  case recordFrameComplete => exact o.completeRecord _ h
  case startFrameComplete =>
    unfold State.completeStart; repeat' split
    all_goals first | exact h | exact o.link _ _ h
  case noticeFrameComplete =>
    unfold State.completeNotice; repeat' split
    all_goals first | exact h | exact o.link _ _ h
  case restartExecute => split <;> first | exact o.restartBlocks _ h | exact h

theorem EventsKeep.idleStep {P} (o : EventsKeep P) {s : State} (h : P s) : P s.idleStep := by
  unfold State.idleStep
  repeat' split
  · exact h
  · exact o.finish _ _ (o.ownOf _ _) h
  · exact o.elapse _ h
  · exact o.elapse _ h

theorem EventsKeep.step {P} (o : EventsKeep P) {s t : State} (h : P s) (e : step s = .next t) : P t := by
  unfold Machine.step at e
  split at e
  · injection e with e; rw [← e]; exact o.idleStep h
  · exact o.exec _ (o.pending _ _ h) e

/-! ## A step with no command waiting -/

/-- With no command waiting and none in EXECUTING, a released part's step is a tick. -/
theorem step_tick {s : State} (hp : s.pending = []) (hr : s.resetHold.held = false) (he : ∀ r, s.link.engine ≠ .executing r) :
    Machine.step s = .next (s.elapse 1) := by
  unfold Machine.step State.idleStep
  rw [hp, hr]
  cases h : s.link.engine with
  | idle => rfl
  | executing r => exact absurd h (he r)
  | delivering f => rfl

/-- With no command waiting, a request in EXECUTING is carried out (R181). -/
theorem step_finish {s : State} {r : Request} (hp : s.pending = []) (hr : s.resetHold.held = false) (he : s.link.engine = .executing r) :
    Machine.step s = .next (s.finish r (ownOf r.kind r.payload)) := by
  unfold Machine.step State.idleStep
  rw [hp, hr, he]
  rfl

/-- A request whose result is not lost is carried out as one taken in IDLE (R181). -/
theorem State.finish_of_kept {s : State} {r : Request} (own : State → State × Reply) (h : r.lost = false) :
    s.finish r own = (s.setEngine .idle).carryOut r.kind r.tag own := by
  unfold State.finish
  rw [h]
  rfl

/-- A request whose result is lost is carried out as one taken while the link is DOWN (R185). -/
theorem State.finish_of_lost {s : State} {r : Request} (own : State → State × Reply) (h : r.lost = true) :
    s.finish r own = (((s.setEngine .idle).setUp false).carryOut r.kind r.tag own).setUp s.link.up := by
  unfold State.finish
  rw [h]
  rfl

/-! ## What some events leave alone -/

theorem Acts.ownOpenFeed (p : List Byte) (s : State) : ∃ i, Acts i s (ownOpenFeed p s).1 ∧ Moves i s (ownOpenFeed p s).1 0 0 := by
  unfold Machine.ownOpenFeed; split
  · exact ⟨0, .refl _ _, .refl _ _⟩
  · rename_i i _; refine ⟨i, ?_⟩
    split
    · exact ⟨.onFeed i s _, .of_parts (by simp [Feed.arm]) (by simp [Feed.arm]) (by simp [Feed.arm])⟩
    · exact ⟨.refl _ _, .refl _ _⟩
    · exact ⟨.refl _ _, .refl _ _⟩

theorem Acts.ownConfigureFeed (p : List Byte) (s : State) : ∃ i, Acts i s (ownConfigureFeed p s).1 ∧ Moves i s (ownConfigureFeed p s).1 0 0 := by
  unfold Machine.ownConfigureFeed; split
  · exact ⟨0, .refl _ _, .refl _ _⟩
  · rename_i i _; refine ⟨i, ?_⟩
    repeat' split
    · rename_i pr _; exact ⟨.onFeed i s (fun f => {f with profile := pr}), .of_parts (by simp) (by simp) (by simp)⟩
    · exact ⟨.refl _ _, .refl _ _⟩
    · exact ⟨.refl _ _, .refl _ _⟩
    · exact ⟨.refl _ _, .refl _ _⟩

theorem Acts.ownCloseFeed (p : List Byte) (s : State) : ∃ i, Acts i s (ownCloseFeed p s).1 ∧ Moves i s (ownCloseFeed p s).1 0 0 := by
  unfold Machine.ownCloseFeed; split
  · exact ⟨0, .refl _ _, .refl _ _⟩
  · rename_i i _; refine ⟨i, ?_⟩
    split
    · exact ⟨.refl _ _, .refl _ _⟩
    · exact ⟨.closeFeed i s, .closeFeed i s⟩
    · exact ⟨.closeFeed i s, .closeFeed i s⟩

theorem feeds_writeSelector (p s) : (ownWriteSelector p s).1.feeds = s.feeds := by unfold ownWriteSelector; split <;> rfl

theorem feeds_clearSelector (p s) : (ownClearSelector p s).1.feeds = s.feeds := by unfold ownClearSelector; split <;> rfl

theorem feeds_configureQueue (p s) : (ownConfigureQueue p s).1.feeds = s.feeds := by unfold ownConfigureQueue; simp only; split <;> rfl

theorem queue_writeSelector (p s) : (ownWriteSelector p s).1.queue = s.queue := by unfold ownWriteSelector; split <;> rfl

theorem queue_clearSelector (p s) : (ownClearSelector p s).1.queue = s.queue := by unfold ownClearSelector; split <;> rfl

/-- The owning block of every request but RESTART leaves the link interface alone (R182). -/
theorem link_ownOf {k : Byte} (hk : k ≠ restartKind) (p : List Byte) (s : State) : (ownOf k p s).1.link = s.link := by
  have line : ∀ {f : List Byte → State → State × Reply}, (∀ p s, (f p s).1 = s ∨ ∃ i, LineActs i s (f p s).1) → (f p s).1.link = s.link := by
    intro f h
    rcases h p s with h | ⟨i, h⟩
    · rw [h]
    · exact h.link
  unfold ownOf
  split <;> rename_i e
  case h_24 => exact absurd (BitVec.eq_of_toNat_eq e) hk
  · exact line LineActs.ownEnableLine
  · exact line LineActs.ownDisableLine
  · exact line LineActs.ownConfigureLine
  · rw [ownQueryLine_fst]
  · unfold ownWriteSelector; split <;> rfl
  · unfold ownClearSelector; split <;> rfl
  · rw [ownReadSelector_fst]
  · obtain ⟨i, h, _⟩ := Acts.ownConfigureFeed p s; exact h.same.link
  · obtain ⟨i, h, _⟩ := Acts.ownOpenFeed p s; exact h.same.link
  · obtain ⟨i, h, _⟩ := Acts.ownCloseFeed p s; exact h.same.link
  · rw [ownQueryFeed_fst]
  · exact (TimeActs.ownSetTime p s).same.link
  · exact (TimeActs.ownAdjustTime p s).same.link
  · exact (TimeActs.ownSlew p s).same.link
  · exact (TimeActs.ownSetRate p s).same.link
  · rfl
  · exact (TimeActs.ownConfigureReference p s).same.link
  · exact (TimeActs.ownConfigureDiscipline p s).same.link
  · exact (TimeActs.ownTrack p s).same.link
  · exact (TimeActs.ownMeasure p s).same.link
  · unfold ownConfigureQueue; simp only; split <;> rfl
  · rfl
  · rfl
  · rfl

/-- The command of a complete frame is the frame taken by its kind (R179, R198). -/
theorem exec_ofFrame {s : State} (h : s.resetHold.held = false) (k t : Byte) (p : List Byte) :
    Machine.exec (Instr.ofFrame k t p) s = .next (s.takeFrame k t p) := by
  have released : ∀ f : State → State, whenReleased f s = .next (f s) := fun f => by unfold whenReleased; rw [h]; rfl
  unfold Instr.ofFrame
  split <;> rename_i e
  case h_27 => exact released _
  all_goals
    have hk : k = BitVec.ofNat 8 k.toNat := by simp
    rw [e] at hk
    subst hk
    exact released _

theorem feeds_grant (s : State) : s.grant.feeds = s.feeds := by
  unfold State.grant; repeat' split
  all_goals rfl

theorem queue_grant (s : State) : s.grant.queue = s.queue := by
  unfold State.grant; repeat' split
  all_goals rfl

theorem handOver_acts (s : State) : ∃ i u, u.feeds = s.feeds ∧ u.queue = s.queue ∧ u.time = s.time ∧ Acts i u s.handOver ∧ Moves i u s.handOver 0 0 := by
  unfold State.handOver
  split
  · exact ⟨0, s, rfl, rfl, rfl, .refl _ _, .refl _ _⟩
  · rename_i m _
    split
    · exact ⟨m.feed, s.freeClassifier, rfl, rfl, rfl, .count _ _ _, .count_other _ _ _ fun _ => ⟨rfl, rfl, rfl, rfl, rfl, rfl, rfl, rfl, rfl⟩⟩
    all_goals
      rename_i hst
      have hne : (s.freeClassifier.feed m.feed).state ≠ .closed := by
        have : (s.freeClassifier.feed m.feed).state = (s.feed m.feed).state := rfl
        rw [this, hst]; simp
      unfold State.extractAndTake; split
      · exact ⟨m.feed, State.countShort m.descriptor.line s.freeClassifier, rfl, rfl, rfl, .refl _ _, .refl _ _⟩
      · exact ⟨m.feed, s.freeClassifier, rfl, rfl, rfl, .takeArrival _ _ _, .takeArrival _ _ _ hne⟩

theorem expireStats_feeds (s : State) : s.expireStats.feeds = s.feeds := by
  unfold State.expireStats; repeat' split
  · unfold State.offerStats
    generalize (List.filter _ allFeeds) = l
    generalize hu : ({ s with queue := _ } : State) = u
    have : ∀ (l : List FeedId) (v : State), (l.foldl (fun t i => t.offerNow (.stats (u.statsOf i))) v).feeds = v.feeds := by
      intro l; induction l with
      | nil => intro v; rfl
      | cons a l ih => intro v; exact (ih _).trans rfl
    rw [this, ← hu]
  · rfl
  · rfl

theorem completeRecord_feeds (s : State) : s.completeRecord.feeds = s.feeds := by
  have b : LinkBlind (fun t => t.feeds = s.feeds) := ⟨fun _ _ h => h, fun _ _ h => h⟩
  unfold State.completeRecord; simp only; repeat' split
  · exact b.fetchLooks _ rfl
  · rfl
  · rfl
  · rfl

/-- An event of a line port, or a request to one, leaves the feeds alone. -/
theorem feeds_of_line {f : List Byte → State → State × Reply} (h : ∀ p s, (f p s).1 = s ∨ ∃ i, LineActs i s (f p s).1) (p : List Byte)
    (s : State) : (f p s).1.feeds = s.feeds := by
  rcases h p s with h | ⟨i, h⟩
  · rw [h]
  · exact h.feeds

/-- A request to a line port keeps the queue's invariant. -/
theorem queue_of_line {f : List Byte → State → State × Reply} (h : ∀ p s, (f p s).1 = s ∨ ∃ i, LineActs i s (f p s).1) (p : List Byte)
    (s : State) (hs : s.queue.Sound) : (f p s).1.queue.Sound := by
  rcases h p s with h | ⟨i, h⟩
  · rw [h]; exact hs
  · exact h.queue hs

/-- The STATS records of an expiry keep the queue's invariant (R175). -/
theorem State.offerStats_sound (s : State) (h : s.queue.Sound) : s.offerStats.queue.Sound := by
  unfold State.offerStats
  have : ∀ (l : List FeedId) (v : State), v.queue.Sound → (l.foldl (fun t i => t.offerNow (.stats (s.statsOf i))) v).queue.Sound := by
    intro l
    induction l with
    | nil => intro v h; exact h
    | cons a l ih => intro v h; exact ih _ (State.offerNow_sound h _)
  exact this _ _ h

end Sys2Proof.Machine
end

