-- ==== Sys2Proof/Laws/Batches.lean ====
section
/-! SUPPORT. Batches: releases, declarations, chains and flushes as one offer of their records and one change of the feed (R52, R82, R100,
R102, R111). -/

namespace Sys2Proof.Machine

theorem State.onFeed_offer (s : State) (i : FeedId) (g : Feed → Feed) (r : Record) : (s.onFeed i g).offer r = (s.offer r).onFeed i g := rfl

theorem State.onFeed_raise (s : State) (i : FeedId) (g : Feed → Feed) (id : NoticeId) (x : Summary) :
    (s.onFeed i g).raise id x = (s.raise id x).onFeed i g := rfl

theorem State.onFeed_onFeed (s : State) (i : FeedId) (g h : Feed → Feed) : (s.onFeed i g).onFeed i h = s.onFeed i fun f => h (g f) := by
  simp only [State.onFeed, State.setFeed, State.feed, Fin.getElem_fin, Vector.getElem_set_self, Vector.set_set]

theorem State.onFeed_congr {s : State} {i : FeedId} {g h : Feed → Feed} (e : g (s.feed i) = h (s.feed i)) : s.onFeed i g = s.onFeed i h := by
  simp only [State.onFeed, e]

theorem State.onFeed_id (s : State) (i : FeedId) : (s.onFeed i fun f => f) = s := by
  simp [State.onFeed, State.setFeed, State.feed]

theorem State.setFeed_eq (s : State) (i : FeedId) (f : Feed) : s.setFeed i f = s.onFeed i fun _ => f := rfl

@[simp] theorem State.offerAll_nil (s : State) : s.offerAll [] = s := rfl
@[simp] theorem State.offerAll_cons (s : State) (r : Record) (rs : List Record) : s.offerAll (r :: rs) = (s.offer r).offerAll rs := rfl
theorem State.offerAll_append (s : State) (a b : List Record) : s.offerAll (a ++ b) = (s.offerAll a).offerAll b := List.foldl_append

theorem State.onFeed_offerAll (i : FeedId) (g : Feed → Feed) (rs : List Record) (s : State) :
    (s.onFeed i g).offerAll rs = (s.offerAll rs).onFeed i g := by
  induction rs generalizing s with
  | nil => rfl
  | cons r rs ih => exact ih (s.offer r)

theorem State.feeds_offerAll (rs : List Record) (s : State) : (s.offerAll rs).feeds = s.feeds := by
  induction rs generalizing s with
  | nil => rfl
  | cons r rs ih => exact (ih (s.offer r)).trans rfl

theorem State.time_offerAll (rs : List Record) (s : State) : (s.offerAll rs).time = s.time := by
  induction rs generalizing s with
  | nil => rfl
  | cons r rs ih => exact (ih (s.offer r)).trans rfl

theorem State.feed_offerAll (rs : List Record) (s : State) (i : FeedId) : (s.offerAll rs).feed i = s.feed i := by
  simp only [State.feed, State.feeds_offerAll]

theorem FeedCounters.released_nil (c : FeedCounters) : c.released [] = c := by simp [FeedCounters.released]

theorem FeedCounters.released_cons (h : HeldRecord) (hs : List HeldRecord) (c : FeedCounters) :
    c.released (h :: hs) = (countWon h.first.leg c).released hs := by
  cases e : h.first.leg <;> simp [FeedCounters.released, e, countWon, BitVec.ofNat_add] <;> ring

theorem FeedCounters.released_append (a b : List HeldRecord) (c : FeedCounters) : c.released (a ++ b) = (c.released a).released b := by
  simp [FeedCounters.released, BitVec.ofNat_add, ← add_assoc]

theorem FeedCounters.declared_nil (c : FeedCounters) : c.declared [] = c := by simp [FeedCounters.declared]

theorem FeedCounters.declared_cons (g : GapRange) (gs : List GapRange) (c : FeedCounters) :
    c.declared (g :: gs) = FeedCounters.declared gs { c with numbersLost := c.numbersLost + rangeCount g.first g.last } := by
  simp [FeedCounters.declared, ← add_assoc]

/-- A batch of releases is the offer of its ARRIVAL records and the count of its winners. -/
theorem State.releaseAll_eq (i : FeedId) (rs : List (TwinStatus × HeldRecord)) (s : State) :
    s.releaseAll i rs = (s.offerAll (rs.map fun r => arrivalRecord i (s.feed i).profile.sendFormat r.1 r.2)).onFeed i fun f =>
      { f with counters := f.counters.released (rs.map Prod.snd) } := by
  induction rs generalizing s with
  | nil => simp [State.releaseAll, FeedCounters.released_nil, State.onFeed_id]
  | cons r rs ih =>
    have step : s.releaseAll i (r :: rs) = (s.release i r.1 r.2).releaseAll i rs := rfl
    have hr : s.release i r.1 r.2 = (s.offer (arrivalRecord i (s.feed i).profile.sendFormat r.1 r.2)).onFeed i fun f =>
        { f with counters := countWon r.2.first.leg f.counters } := rfl
    have hp : ((s.release i r.1 r.2).feed i).profile.sendFormat = (s.feed i).profile.sendFormat := by
      rw [hr]; simp
    rw [step, ih, hp, hr, State.onFeed_offerAll, State.onFeed_onFeed]
    simp only [List.map_cons, FeedCounters.released_cons, State.offerAll_cons]

theorem State.declareAll_eq (i : FeedId) (cause : GapCause) (gs : List GapRange) (s : State) :
    s.declareAll i cause gs = (s.offerAll (gapRecords i cause s.reading gs)).onFeed i fun f =>
      { f with counters := f.counters.declared gs } := by
  induction gs generalizing s with
  | nil => simp [State.declareAll, gapRecords, FeedCounters.declared_nil, State.onFeed_id]
  | cons g gs ih =>
    have step : s.declareAll i cause (g :: gs) = (s.declare i cause g).declareAll i cause gs := rfl
    have hr : s.declare i cause g = (s.offer { stamp := s.reading, body := .gap i cause g.first g.last g.opened }).onFeed i fun f =>
        { f with counters := { f.counters with numbersLost := f.counters.numbersLost + rangeCount g.first g.last } } := rfl
    have hd : (s.declare i cause g).reading = s.reading := rfl
    rw [step, ih, hd, hr, State.onFeed_offerAll, State.onFeed_onFeed]
    simp only [gapRecords, List.map_cons, FeedCounters.declared_cons, State.offerAll_cons]

theorem chain_of {now : LocalCount} {hold out rest : List HeldRecord} (h : ChainsTo now hold out rest) :
    chainReleased now hold = out.map (fun x => (statusOr .timeout x, x)) ∧ chainLeft now hold = rest := by
  obtain ⟨rfl, goes, stays⟩ := h
  induction out with
  | nil =>
    cases rest with
    | nil => exact ⟨rfl, rfl⟩
    | cons r rs =>
      have := stays r rfl
      simp [chainReleased, chainLeft, this.1, this.2]
  | cons x xs ih =>
    have hx := goes x List.mem_cons_self
    have ih := ih (fun y hy => goes y (List.mem_cons_of_mem _ hy))
    cases e : x.twin with
    | some t => simp [chainReleased, chainLeft, e, ih.1, ih.2, statusOr]
    | none =>
      have : reached x.deadline now = true := by simpa [e] using hx
      simp [chainReleased, chainLeft, e, this, ih.1, ih.2, statusOr]

theorem releaseRecords_eq (i : FeedId) (fmt : SendFormat) (st : TwinStatus) (hs : List HeldRecord) :
    (hs.map fun x => (statusOr st x, x)).map (fun r => arrivalRecord i fmt r.1 r.2) = releaseRecords i fmt st hs := by
  simp [releaseRecords, statusOr, Function.comp_def]

theorem map_snd_status (st : TwinStatus) (hs : List HeldRecord) : (hs.map fun x => (statusOr st x, x)).map Prod.snd = hs := by
  simp [Function.comp_def]

/-- The chain release (R100), by what goes and what stays. -/
theorem State.chain_eq {i : FeedId} {s : State} {out rest : List HeldRecord} (h : ChainsTo s.now (s.feed i).hold out rest) :
    s.chain i = (s.offerAll (releaseRecords i (s.feed i).profile.sendFormat .timeout out)).onFeed i fun f =>
      { f with hold := rest, counters := f.counters.released out } := by
  have hc := chain_of h
  have hp : ((s.setHold i rest).feed i).profile = (s.feed i).profile := by simp [State.setHold]
  rw [State.chain, hc.1, hc.2, State.releaseAll_eq, releaseRecords_eq, map_snd_status, hp, State.setHold, State.onFeed_offerAll,
    State.onFeed_onFeed]

theorem State.flushHold_eq (i : FeedId) (st : TwinStatus) (s : State) :
    s.flushHold i st = (s.offerAll (releaseRecords i (s.feed i).profile.sendFormat st (s.feed i).hold)).onFeed i fun f =>
      { f with hold := [], counters := f.counters.released f.hold } := by
  have hp : ((s.setHold i []).feed i).profile = (s.feed i).profile := by simp [State.setHold]
  rw [State.flushHold, State.releaseAll_eq, releaseRecords_eq, map_snd_status, hp, State.setHold, State.onFeed_offerAll,
    State.onFeed_onFeed]
  refine State.onFeed_congr ?_
  simp [State.feed_offerAll]

theorem State.flushGaps_eq (i : FeedId) (c : GapCause) (s : State) :
    s.flushGaps i c = (s.offerAll (gapRecords i c s.reading (s.feed i).gaps)).onFeed i fun f =>
      { f with gaps := [], counters := f.counters.declared f.gaps } := by
  rw [State.flushGaps, State.declareAll_eq, State.setGaps, State.onFeed_offerAll, State.onFeed_onFeed]
  refine State.onFeed_congr ?_
  simp [State.feed_offerAll]

end Sys2Proof.Machine
end

