-- ==== Sys2Proof/Laws/Arrivals.lean ====
section
/-! SUPPORT. Arrivals: what HAND_OVER comes down to for an arrival, the checks that decide nothing, the opening of a range, and the aging. -/

namespace Sys2Proof.Machine

theorem heard_eq {s : State} {m : Matched} {a : Arrival} :
    (s.freeClassifier.updateLeg m.feed a.copy.leg a.copy.stamp).count m.feed (countCopy a.copy.leg) = s.heard m a := by
  have hp : s.freeClassifier.feed m.feed = s.feed m.feed := rfl
  have hn : s.freeClassifier.now = s.now := rfl
  have hg : ∀ w, (s.freeClassifier.setFeed m.feed ((s.feed m.feed).setLeg a.copy.leg w)).count m.feed (countCopy a.copy.leg) =
      s.freeClassifier.setFeed m.feed { (s.feed m.feed).setLeg a.copy.leg w with counters := countCopy a.copy.leg (s.feed m.feed).counters } := by
    intro w
    have : ((s.feed m.feed).setLeg a.copy.leg w).counters = (s.feed m.feed).counters := by cases a.copy.leg <;> rfl
    simp only [State.count, State.setFeed_eq, State.onFeed_onFeed, this]
  unfold State.heard State.updateLeg
  simp only [hp, hn]
  by_cases hl : ((s.feed m.feed).leg a.copy.leg).state = .active
  · rw [if_pos hl, if_pos hl, hg]; rfl
  · rw [if_neg hl, if_neg hl]
    have : ∀ u : State, (u.reportLeg m.feed a.copy.leg ((s.feed m.feed).leg a.copy.leg).state .active a.copy.stamp).count m.feed (countCopy a.copy.leg)
      = (u.count m.feed (countCopy a.copy.leg)).reportLeg m.feed a.copy.leg ((s.feed m.feed).leg a.copy.leg).state .active a.copy.stamp := fun u => rfl
    rw [this, hg]; rfl

theorem feed_heard (s : State) (m : Matched) (a : Arrival) : (s.heard m a).feed m.feed = (s.feed m.feed).heard a.copy.leg s.now := by
  unfold State.heard
  simp only
  split <;> simp [State.feed, State.offer, State.raise]

theorem setLeg_state (f : Feed) (l : Leg) (w : LegWatch) : (f.setLeg l w).state = f.state ∧ (f.setLeg l w).profile = f.profile ∧
  (f.setLeg l w).hold = f.hold ∧ (f.setLeg l w).gaps = f.gaps ∧ (f.setLeg l w).candidate = f.candidate := by cases l <;> exact ⟨rfl, rfl, rfl, rfl, rfl⟩

theorem heard_fields (s : State) (m : Matched) (a : Arrival) :
  ((s.heard m a).feed m.feed).state = (s.feed m.feed).state ∧ ((s.heard m a).feed m.feed).profile = (s.feed m.feed).profile ∧
  ((s.heard m a).feed m.feed).hold = (s.feed m.feed).hold ∧ ((s.heard m a).feed m.feed).gaps = (s.feed m.feed).gaps ∧
  ((s.heard m a).feed m.feed).candidate = (s.feed m.feed).candidate := by
  rw [feed_heard]; unfold Feed.heard; exact setLeg_state _ _ _

theorem now_heard (s : State) (m : Matched) (a : Arrival) : (s.heard m a).now = s.now ∧ (s.heard m a).reading = s.reading := by
  unfold State.heard; simp only; split <;> exact ⟨rfl, rfl⟩

theorem exec_handOver {s : State} {m : Matched} {a : Arrival} (h : s.HandsOver m a) (hs : (s.feed m.feed).state ≠ .closed) :
    exec .handOver s = .next (match (s.feed m.feed).state with
      | .closed => s.heard m a
      | .armed => (s.heard m a).firstArrival m.feed a
      | .running e => (s.heard m a).arbitrate m.feed e a) := by
  obtain ⟨hr, hh, hf, ha⟩ := h
  have hc : ∀ t : State, t = s.freeClassifier → t.extractAndTake m = (match (s.feed m.feed).state with
      | .closed => s.heard m a
      | .armed => (s.heard m a).firstArrival m.feed a
      | .running e => (s.heard m a).arbitrate m.feed e a) := by
    rintro _ rfl
    have hp : s.freeClassifier.feed m.feed = s.feed m.feed := rfl
    unfold State.extractAndTake sequenceOf
    rw [hp, if_pos hf]
    simp only [windowField]
    rw [← ha]
    unfold State.takeArrival
    have hl : a.copy.leg = m.leg := by rw [ha]; rfl
    simp only [heard_eq, (heard_fields s m a).1] <;> rfl
  show (Host.Outcome.next _ : Host.Outcome State Fault Refusal) = _
  rw [hr]
  congr 1
  show State.handOver s = _
  unfold State.handOver
  rw [hh]
  simp only
  cases e : (s.feed m.feed).state with
  | closed => exact absurd e hs
  | armed => simp only; rw [hc _ rfl, e]
  | running n => simp only; rw [hc _ rfl, e]

theorem ageGaps_none {v : State} {i : FeedId} {e : SeqNum} (h : (v.feed i).gaps = []) : v.ageGaps i e = v := by
  unfold State.ageGaps
  rw [h]
  simp only [List.filter_nil, State.declareAll, List.foldl_nil, State.setGaps]
  conv_rhs => rw [← State.onFeed_id v i]
  exact State.onFeed_congr (by rw [← h])

theorem agedPart_none {e : SeqNum} {l : List HeldRecord} (h : ∀ x ∈ l, isAged e x.number = false) : agedPart e l = [] := by
  cases l with
  | nil => rfl
  | cons x t =>
    have : t.any (fun x => isAged e x.number) = false := by
      simpa using fun y hy => h y (List.mem_cons_of_mem _ hy)
    simp [agedPart, h x List.mem_cons_self, this]

theorem ageHeld_none {v : State} {i : FeedId} {e : SeqNum} (h : ∀ x ∈ (v.feed i).hold, isAged e x.number = false) : v.ageHeld i e = v := by
  unfold State.ageHeld; simp [agedPart_none h]

theorem arb_unseen {u : State} {i : FeedId} {a : Arrival} {e : SeqNum} (h : (u.feed i).Unseen a.number) : u.arbitrate i e a = u.place i e a := by
  unfold State.arbitrate
  have hl : u.checkLists i e a = u.place i e a := by
    unfold State.checkLists
    have h1 : (u.feed i).hold.find? (fun h => h.number == a.number) = none := by simpa using h.hold
    have h2 : (u.feed i).gaps.any (GapRange.holds a.number) = false := by simpa using h.gaps
    rw [h1, h2]
    simp only [Bool.false_eq_true, if_false]
    unfold State.confirmOrPlace
    cases hc : (u.feed i).candidate with
    | none => rfl
    | some c =>
      have := h.candidate c hc
      have : confirms c.number a.number = false := by
        simp only [confirms, distance]; exact decide_eq_false (by omega)
      simp [this]
  cases hc : (u.feed i).candidate with
  | none => exact hl
  | some c =>
    have := h.candidate c hc
    have hne : c.number ≠ a.number := by rintro h; rw [h] at this; simp [Config.confirmWindow] at this
    simp only [if_neg hne]; exact hl

theorem unseen_congr {f g : Feed} {n : SeqNum} (h : f.Unseen n) (h1 : g.hold = f.hold) (h2 : g.gaps = f.gaps) (h3 : g.candidate = f.candidate) : g.Unseen n :=
  ⟨by rw [h3]; exact h.candidate, by rw [h1]; exact h.hold, by rw [h2]; exact h.gaps⟩

theorem unseen_heard {s : State} {m : Matched} {a : Arrival} (h : (s.feed m.feed).Unseen a.number) : ((s.heard m a).feed m.feed).Unseen a.number := by
  obtain ⟨e1, e2, e3, e4, e5⟩ := heard_fields s m a
  exact unseen_congr h e3 e4 e5

theorem running_handOver {s : State} {m : Matched} {a : Arrival} {e : SeqNum} (h : s.HandsOver m a) (hs : (s.feed m.feed).state = .running e) :
    exec .handOver s = .next ((s.heard m a).arbitrate m.feed e a) := by
  rw [exec_handOver h (by rw [hs]; exact FeedState.noConfusion), hs]

theorem behind_none {e n : SeqNum} (h : (n - e).toNat < 2 ^ 31) : behind e n = none := by
  unfold behind; exact if_neg (by show ¬ 2 ^ 31 ≤ (n - e).toNat; omega)

theorem behind_some {e n : SeqNum} (h : 2 ^ 31 ≤ (n - e).toNat) : behind e n = some (2 ^ 32 - (n - e).toNat) := by
  unfold behind; exact if_pos h

theorem openGap_lt {u : State} {i : FeedId} {x y : SeqNum} {o : Stamp} (h : (u.feed i).gaps.length < 4) :
    u.openGap i x y o = u.onFeed i fun f => { f with
      gaps := f.gaps ++ [{ first := x, last := y, opened := o, deadline := after u.now ((u.feed i).profile.gap * 1000) }]
      counters := { f.counters with gapsOpened := f.counters.gapsOpened + 1 } } := by
  unfold State.openGap
  cases hgs : (u.feed i).gaps with
  | nil =>
    simp only [hgs, State.setGaps, State.count, State.onFeed_onFeed]
    refine State.onFeed_congr ?_
    simp only [hgs, List.nil_append]
  | cons p r =>
    rw [hgs] at h
    simp only [hgs]
    rw [if_pos (by simpa [Config.gapPlaces] using h)]
    simp only [State.setGaps, State.count, State.onFeed_onFeed]
    refine State.onFeed_congr ?_
    simp only [hgs]

theorem openGap_full {u : State} {i : FeedId} {x y : SeqNum} {o : Stamp} {p r} (hgs : (u.feed i).gaps = p :: r) (h : 4 ≤ (u.feed i).gaps.length) :
    u.openGap i x y o = (u.offerAll (gapRecords i .listFull u.reading [p])).onFeed i fun f => { f with
      gaps := r ++ [{ first := x, last := y, opened := o, deadline := after u.now ((u.feed i).profile.gap * 1000) }]
      counters := .declared [p] { f.counters with gapsOpened := f.counters.gapsOpened + 1 } } := by
  unfold State.openGap
  simp only [hgs]
  rw [hgs] at h
  rw [if_neg (by simpa [Config.gapPlaces] using h)]
  have hd : ∀ v : State, v.declare i .listFull p = v.declareAll i .listFull [p] := fun _ => rfl
  rw [hd, State.declareAll_eq]
  have hr : ∀ l, (u.setGaps i l).reading = u.reading := fun _ => rfl
  rw [hr]
  simp only [State.setGaps, State.count, State.onFeed_offerAll, State.onFeed_onFeed]
  rfl

theorem agedPart_eq {e : SeqNum} {aged kept : List HeldRecord} (h1 : ∀ h ∈ kept, isAged e h.number = false)
    (h2 : ∀ h, aged.getLast? = some h → isAged e h.number = true) : agedPart e (aged ++ kept) = aged := by
  induction aged with
  | nil => exact agedPart_none h1
  | cons x xs ih =>
    have : (isAged e x.number || (xs ++ kept).any fun x => isAged e x.number) = true := by
      cases xs with
      | nil => simp [h2 x rfl]
      | cons y ys =>
        have hl : (y :: ys).getLast? = some ((y :: ys).getLast (by simp)) := List.getLast?_eq_getLast_of_ne_nil _
        have := h2 ((y :: ys).getLast (by simp)) (by rw [← hl, List.getLast?_cons_cons])
        have hm : (y :: ys).getLast (by simp) ∈ y :: ys := List.getLast_mem _
        rw [Bool.or_eq_true]; right
        rw [List.any_eq_true]
        exact ⟨_, List.mem_append_left _ hm, this⟩
    have ihx : agedPart e (xs ++ kept) = xs := by
      cases xs with
      | nil => exact agedPart_none h1
      | cons y ys => exact ih (fun h hh => h2 h (by rw [List.getLast?_cons_cons]; exact hh))
    rw [List.cons_append, agedPart, if_pos this, ihx]

theorem ageCandidate_eq (i : FeedId) (e : SeqNum) (s : State) : s.ageCandidate i e = s.onFeed i fun f => { f with
      candidate := f.candidate.filter fun c => beyond f.profile.jumpLimit e c.number
      counters := { f.counters with strays := f.counters.strays + if (f.candidate.any fun c => !beyond f.profile.jumpLimit e c.number) then 1 else 0 } } := by
  unfold State.ageCandidate
  cases hc : (s.feed i).candidate with
  | none =>
    conv_lhs => rw [← State.onFeed_id s i]
    exact State.onFeed_congr (by simp [hc]; rw [← hc])
  | some c =>
    simp only
    by_cases hb : beyond (s.feed i).profile.jumpLimit e c.number = true
    · rw [if_pos hb]
      conv_lhs => rw [← State.onFeed_id s i]
      refine State.onFeed_congr ?_
      generalize s.feed i = f at *; obtain ⟨_, _, _, _, _, _, cc, _⟩ := f; simp only at hc; subst hc; simp [Option.filter, hb]
    · rw [if_neg hb]
      simp only [State.dropCandidate, State.setCandidate, State.count, State.onFeed_onFeed]
      refine State.onFeed_congr ?_
      generalize s.feed i = f at *; obtain ⟨_, _, _, _, _, _, cc, _⟩ := f; simp only at hc; subst hc; simp [Option.filter, hb]

end Sys2Proof.Machine
end

