-- ==== Sys2Proof/Laws/PerInstr.lean ====
section
/-! SUPPORT. Statements about every command as syntax, one lemma per constructor. FrameRoundTrip: a well-formed command that is a complete inbound
frame is the command its frame stands for (R179, R198). -/

namespace Sys2Proof.Laws

/-- The frame of a well-formed command reads back as the command. -/
def FrameRoundTrip.Statement (i : Instr) : Prop :=
  ∀ (kind tag : Byte) (payload : List Byte), i.WellFormed = true → i.toFrame = some (kind, tag, payload) → Instr.ofFrame kind tag payload = i

/-- A command that is no frame satisfies the statement. -/
theorem roundTrip_of_none {i : Instr} (h : i.toFrame = none) : FrameRoundTrip.Statement i :=
  fun _ _ _ _ e => nomatch h.symm.trans e

/-- A command satisfies the statement when its own frame reads back as it. -/
theorem roundTrip_of_some {i : Instr} {k t : Byte} {p : List Byte} (h : i.toFrame = some (k, t, p)) (r : Instr.ofFrame k t p = i) :
    FrameRoundTrip.Statement i := by
  intro kind tag payload _ e
  rw [h, Option.some.injEq, Prod.mk.injEq, Prod.mk.injEq] at e
  rw [← e.1, ← e.2.1, ← e.2.2, r]

/-- A kind that is no request kind reads back as a frame of unknown kind. -/
theorem ofFrame_unknown {kind : Byte} (tag : Byte) (payload : List Byte) (h : requestLength kind = none) :
    Instr.ofFrame kind tag payload = .unknownKind kind tag payload := by
  unfold requestLength at h
  unfold Instr.ofFrame
  split <;> simp_all

theorem FrameRoundTrip.lineSignalChange (line : LineId) (present : Bool) : FrameRoundTrip.Statement (.lineSignalChange line present) :=
  roundTrip_of_none rfl

theorem FrameRoundTrip.startOfFrame (line : LineId) : FrameRoundTrip.Statement (.startOfFrame line) :=
  roundTrip_of_none rfl

theorem FrameRoundTrip.endOfFrame (line : LineId) (good : Bool) (bytes : List Byte) : FrameRoundTrip.Statement (.endOfFrame line good bytes) :=
  roundTrip_of_none rfl

theorem FrameRoundTrip.quietTimerExpiry (line : LineId) : FrameRoundTrip.Statement (.quietTimerExpiry line) :=
  roundTrip_of_none rfl

theorem FrameRoundTrip.ingressGrant : FrameRoundTrip.Statement .ingressGrant :=
  roundTrip_of_none rfl

theorem FrameRoundTrip.handOver : FrameRoundTrip.Statement .handOver :=
  roundTrip_of_none rfl

theorem FrameRoundTrip.pairingTimerExpiry (feed : FeedId) : FrameRoundTrip.Statement (.pairingTimerExpiry feed) :=
  roundTrip_of_none rfl

theorem FrameRoundTrip.gapTimerExpiry (feed : FeedId) : FrameRoundTrip.Statement (.gapTimerExpiry feed) :=
  roundTrip_of_none rfl

theorem FrameRoundTrip.candidateExpiry (feed : FeedId) : FrameRoundTrip.Statement (.candidateExpiry feed) :=
  roundTrip_of_none rfl

theorem FrameRoundTrip.silenceDeadlineExpiry (feed : FeedId) (leg : Leg) : FrameRoundTrip.Statement (.silenceDeadlineExpiry feed leg) :=
  roundTrip_of_none rfl

theorem FrameRoundTrip.statisticsTimerExpiry : FrameRoundTrip.Statement .statisticsTimerExpiry :=
  roundTrip_of_none rfl

theorem FrameRoundTrip.referencePulse (ref : RefId) (edge : Edge) : FrameRoundTrip.Statement (.referencePulse ref edge) :=
  roundTrip_of_none rfl

theorem FrameRoundTrip.referenceTimeout (ref : RefId) : FrameRoundTrip.Statement (.referenceTimeout ref) :=
  roundTrip_of_none rfl

theorem FrameRoundTrip.holdoverTimerExpiry : FrameRoundTrip.Statement .holdoverTimerExpiry :=
  roundTrip_of_none rfl

theorem FrameRoundTrip.slewComplete : FrameRoundTrip.Statement .slewComplete :=
  roundTrip_of_none rfl

theorem FrameRoundTrip.enableLine (tag : Byte) (payload : List Byte) : FrameRoundTrip.Statement (.enableLine tag payload) :=
  roundTrip_of_some rfl rfl

theorem FrameRoundTrip.disableLine (tag : Byte) (payload : List Byte) : FrameRoundTrip.Statement (.disableLine tag payload) :=
  roundTrip_of_some rfl rfl

theorem FrameRoundTrip.configureLine (tag : Byte) (payload : List Byte) : FrameRoundTrip.Statement (.configureLine tag payload) :=
  roundTrip_of_some rfl rfl

theorem FrameRoundTrip.queryLine (tag : Byte) (payload : List Byte) : FrameRoundTrip.Statement (.queryLine tag payload) :=
  roundTrip_of_some rfl rfl

theorem FrameRoundTrip.writeSelector (tag : Byte) (payload : List Byte) : FrameRoundTrip.Statement (.writeSelector tag payload) :=
  roundTrip_of_some rfl rfl

theorem FrameRoundTrip.clearSelector (tag : Byte) (payload : List Byte) : FrameRoundTrip.Statement (.clearSelector tag payload) :=
  roundTrip_of_some rfl rfl

theorem FrameRoundTrip.readSelector (tag : Byte) (payload : List Byte) : FrameRoundTrip.Statement (.readSelector tag payload) :=
  roundTrip_of_some rfl rfl

theorem FrameRoundTrip.configureFeed (tag : Byte) (payload : List Byte) : FrameRoundTrip.Statement (.configureFeed tag payload) :=
  roundTrip_of_some rfl rfl

theorem FrameRoundTrip.openFeed (tag : Byte) (payload : List Byte) : FrameRoundTrip.Statement (.openFeed tag payload) :=
  roundTrip_of_some rfl rfl

theorem FrameRoundTrip.closeFeed (tag : Byte) (payload : List Byte) : FrameRoundTrip.Statement (.closeFeed tag payload) :=
  roundTrip_of_some rfl rfl

theorem FrameRoundTrip.queryFeed (tag : Byte) (payload : List Byte) : FrameRoundTrip.Statement (.queryFeed tag payload) :=
  roundTrip_of_some rfl rfl

theorem FrameRoundTrip.setTime (tag : Byte) (payload : List Byte) : FrameRoundTrip.Statement (.setTime tag payload) :=
  roundTrip_of_some rfl rfl

theorem FrameRoundTrip.adjustTime (tag : Byte) (payload : List Byte) : FrameRoundTrip.Statement (.adjustTime tag payload) :=
  roundTrip_of_some rfl rfl

theorem FrameRoundTrip.slew (tag : Byte) (payload : List Byte) : FrameRoundTrip.Statement (.slew tag payload) :=
  roundTrip_of_some rfl rfl

theorem FrameRoundTrip.setRate (tag : Byte) (payload : List Byte) : FrameRoundTrip.Statement (.setRate tag payload) :=
  roundTrip_of_some rfl rfl

theorem FrameRoundTrip.readTime (tag : Byte) (payload : List Byte) : FrameRoundTrip.Statement (.readTime tag payload) :=
  roundTrip_of_some rfl rfl

theorem FrameRoundTrip.configureReference (tag : Byte) (payload : List Byte) : FrameRoundTrip.Statement (.configureReference tag payload) :=
  roundTrip_of_some rfl rfl

theorem FrameRoundTrip.configureDiscipline (tag : Byte) (payload : List Byte) : FrameRoundTrip.Statement (.configureDiscipline tag payload) :=
  roundTrip_of_some rfl rfl

theorem FrameRoundTrip.track (tag : Byte) (payload : List Byte) : FrameRoundTrip.Statement (.track tag payload) :=
  roundTrip_of_some rfl rfl

theorem FrameRoundTrip.measure (tag : Byte) (payload : List Byte) : FrameRoundTrip.Statement (.measure tag payload) :=
  roundTrip_of_some rfl rfl

theorem FrameRoundTrip.configureQueue (tag : Byte) (payload : List Byte) : FrameRoundTrip.Statement (.configureQueue tag payload) :=
  roundTrip_of_some rfl rfl

theorem FrameRoundTrip.fetch (tag : Byte) (payload : List Byte) : FrameRoundTrip.Statement (.fetch tag payload) :=
  roundTrip_of_some rfl rfl

theorem FrameRoundTrip.halt (tag : Byte) (payload : List Byte) : FrameRoundTrip.Statement (.halt tag payload) :=
  roundTrip_of_some rfl rfl

theorem FrameRoundTrip.setNotices (tag : Byte) (payload : List Byte) : FrameRoundTrip.Statement (.setNotices tag payload) :=
  roundTrip_of_some rfl rfl

theorem FrameRoundTrip.status (tag : Byte) (payload : List Byte) : FrameRoundTrip.Statement (.status tag payload) :=
  roundTrip_of_some rfl rfl

theorem FrameRoundTrip.restart (tag : Byte) (payload : List Byte) : FrameRoundTrip.Statement (.restart tag payload) :=
  roundTrip_of_some rfl rfl

theorem FrameRoundTrip.unknownKind (kind : Byte) (tag : Byte) (payload : List Byte) : FrameRoundTrip.Statement (.unknownKind kind tag payload) := by
  intro k t p hw e
  have hf : Instr.toFrame (.unknownKind kind tag payload) = some (kind, tag, payload) := rfl
  have hk : (requestLength kind).isNone = true := (Bool.and_eq_true_iff.mp hw).2
  exact roundTrip_of_some hf (ofFrame_unknown tag payload (Option.isNone_iff_eq_none.mp hk)) k t p hw e

theorem FrameRoundTrip.inboundFrameDiscard (bytes : List Byte) : FrameRoundTrip.Statement (.inboundFrameDiscard bytes) :=
  roundTrip_of_none rfl

theorem FrameRoundTrip.outboundChoice : FrameRoundTrip.Statement .outboundChoice :=
  roundTrip_of_none rfl

theorem FrameRoundTrip.resultFrameComplete : FrameRoundTrip.Statement .resultFrameComplete :=
  roundTrip_of_none rfl

theorem FrameRoundTrip.recordFrameComplete : FrameRoundTrip.Statement .recordFrameComplete :=
  roundTrip_of_none rfl

theorem FrameRoundTrip.startFrameComplete : FrameRoundTrip.Statement .startFrameComplete :=
  roundTrip_of_none rfl

theorem FrameRoundTrip.linkDown : FrameRoundTrip.Statement .linkDown :=
  roundTrip_of_none rfl

theorem FrameRoundTrip.linkUp : FrameRoundTrip.Statement .linkUp :=
  roundTrip_of_none rfl

theorem FrameRoundTrip.powerOn : FrameRoundTrip.Statement .powerOn :=
  roundTrip_of_none rfl

theorem FrameRoundTrip.lineReset : FrameRoundTrip.Statement .lineReset :=
  roundTrip_of_none rfl

theorem FrameRoundTrip.supplyDip : FrameRoundTrip.Statement .supplyDip :=
  roundTrip_of_none rfl

theorem FrameRoundTrip.resetRelease : FrameRoundTrip.Statement .resetRelease :=
  roundTrip_of_none rfl

theorem FrameRoundTrip.restartExecute : FrameRoundTrip.Statement .restartExecute :=
  roundTrip_of_none rfl

theorem FrameRoundTrip.noticeFrameComplete : FrameRoundTrip.Statement .noticeFrameComplete :=
  roundTrip_of_none rfl

end Sys2Proof.Laws
end

