-- ==== Sys2Proof/Laws/Replies.lean ====
section
/-! SUPPORT. Byte fields read back as written (R195), and a request that the link and the request engine are ready for, down to its owning block
(R178 to R182). -/

namespace Sys2Proof

@[simp] theorem length_leBytes (n v : Nat) : (leBytes n v).length = n := by
  induction n generalizing v with
  | zero => rfl
  | succ n ih => simp [leBytes, ih]

@[simp] theorem length_leSigned (n : Nat) (v : Int) : (leSigned n v).length = n := length_leBytes n _

theorem leNat_leBytes (n v : Nat) : leNat (leBytes n v) = v % 256 ^ n := by
  induction n generalizing v with
  | zero => simp [leBytes, leNat, Nat.mod_one]
  | succ n ih =>
    simp only [leBytes, leNat, ih, BitVec.toNat_ofNat]
    rw [show (256 : Nat) ^ (n + 1) = 256 * 256 ^ n by ring, Nat.mod_mul]

theorem leNat_leBytes_of_lt {n v : Nat} (h : v < 256 ^ n) : leNat (leBytes n v) = v := by rw [leNat_leBytes, Nat.mod_eq_of_lt h]

theorem leInt_leSigned {n : Nat} {v : Int} (hn : 0 < n) (h1 : -(2 ^ (8 * n - 1) : Nat) ≤ v) (h2 : v < (2 ^ (8 * n - 1) : Nat)) :
    leInt (leSigned n v) = v := by
  have hp : (256 ^ n : Nat) = 2 ^ (8 * n) := by rw [show (256 : Nat) = 2 ^ 8 by norm_num, ← pow_mul]
  have hd : (2 ^ (8 * n) : Nat) = 2 * 2 ^ (8 * n - 1) := by rw [← pow_succ']; congr 1; omega
  have hl : leNat (leSigned n v) = (v % (2 ^ (8 * n) : Nat)).toNat := by
    refine leNat_leBytes_of_lt ?_
    rw [hp]
    have := Int.emod_lt_of_pos v (show (0 : Int) < (2 ^ (8 * n) : Nat) by positivity)
    have := Int.emod_nonneg v (show ((2 ^ (8 * n) : Nat) : Int) ≠ 0 by positivity)
    omega
  unfold leInt
  rw [length_leSigned, hl]
  generalize (2 ^ (8 * n - 1) : Nat) = m at *
  rw [hd]
  by_cases hv : 0 ≤ v
  · have : v % ((2 * m : Nat) : Int) = v := Int.emod_eq_of_lt hv (by omega)
    rw [this, if_pos (by omega)]; omega
  · have : v % ((2 * m : Nat) : Int) = v + (2 * m : Nat) := by
      rw [← Int.add_emod_right]; exact Int.emod_eq_of_lt (by omega) (by omega)
    rw [this, if_neg (by omega)]; omega

end Sys2Proof

namespace Sys2Proof.Machine

/-- A command of a part that is not held is its event. -/
theorem whenReleased_of {s : State} (f : State → State) (h : s.resetHold.held = false) : whenReleased f s = .next (f s) := by
  unfold whenReleased; rw [h]; rfl

theorem requestLength_le {kind : Byte} {n : Nat} (h : requestLength kind = some n) : n ≤ 17 := by
  unfold requestLength at h
  split at h <;> simp_all <;> omega

/-- A complete frame that finds room goes on as arrived (R178 to R180). -/
theorem State.arrive_of {s : State} {payload : List Byte} (act : State → State) (hf : s.link.framer ≠ .ignoring) (hu : s.link.up = true)
    (ho : s.link.occupancy < Config.resultPlaces) (hp : payload.length ≤ Config.maxPayload) : s.arrive payload act = act s.arrived := by
  have ho' : ¬ (Config.maxPayload < payload.length ∨ Config.resultPlaces ≤ (s.setFramer .hunting).link.occupancy) := by
    rintro (h | h)
    · omega
    · exact absurd h (by show ¬ Config.resultPlaces ≤ s.link.occupancy; omega)
  have hj : (s.setFramer .hunting).judgeFrame payload act = act s.arrived := by
    unfold State.judgeFrame
    rw [if_neg ho']
    unfold State.owe
    rw [if_pos (by exact hu)]
    rfl
  unfold State.arrive
  cases h : s.link.framer with
  | ignoring => exact absurd h hf
  | hunting => exact hj
  | receiving c => exact hj

/-- A request that is admitted is carried out by its owning block on the state with the frame arrived (R179, R181, R182). -/
theorem State.request_of {s : State} {kind tag : Byte} {payload : List Byte} (own : List Byte → State → State × Reply)
    (h : s.Admits kind payload) :
    s.request kind own tag payload = (own payload s.arrived).1.answer kind tag (own payload s.arrived).2 := by
  have hl := requestLength_le h.length
  unfold State.request
  rw [State.arrive_of _ h.framer h.up h.room (by simp only [Config.maxPayload]; omega)]
  unfold State.checkLength
  rw [if_pos h.length]
  unfold State.engage
  have he : s.arrived.link.engine = .idle := h.idle
  rw [he]
  rfl

/-- A request whose owning block leaves the link alone: its effect, and its result queued (R180, R200). -/
theorem State.request_replied {s u : State} {kind tag : Byte} {payload : List Byte} {r : Reply} (own : List Byte → State → State × Reply)
    (h : s.Admits kind payload) (ho : own payload s.arrived = ({ u with link := s.arrived.link }, r)) (hu : u.link = s.link) :
    s.request kind own tag payload = u.replied kind tag r := by
  rw [State.request_of own h, ho]
  unfold State.answer State.queueResult
  have : ({ u with link := s.arrived.link } : State).link.up = true := h.up
  rw [if_pos this]
  unfold State.replied State.arrived
  simp only [hu, Nat.add_sub_cancel]

end Sys2Proof.Machine
end

