-- ==== Sys2Proof/Tests/Slice0.lean ====
section
/-! SUPPORT. The model's own tests: the checks of WellFormed, the manual's worked examples, and for every statement of
Certificates/Slice0/Obligations.lean that has hypotheses a state and operands that meet them (test_meets_<the statement>). -/

namespace Sys2Proof.Tests

open Sys2Proof.Machine

set_option Elab.async false

/-! ## Ill-formed commands -/

theorem test_payload_too_long_is_ill_formed : (Instr.queryLine 0 (List.replicate 1025 0)).WellFormed = false := by decide +kernel

theorem test_unknown_payload_too_long_is_ill_formed : (Instr.unknownKind 0x7F 0 (List.replicate 1025 0)).WellFormed = false := by decide +kernel

theorem test_request_kind_is_no_unknown_kind : (Instr.unknownKind 0x31 0 []).WellFormed = false := by decide +kernel

theorem test_discard_without_start_byte_is_ill_formed : (Instr.inboundFrameDiscard [0xC2, 1, 0, 0, 0, 0, 0]).WellFormed = false := by
  decide +kernel

theorem test_discard_cut_short_is_ill_formed :
    (Instr.inboundFrameDiscard [0xC3, 1, 0]).WellFormed = false ∧ (Instr.inboundFrameDiscard [0xC3, 1, 0, 0, 0, 0]).WellFormed = false := by
  decide +kernel

theorem test_discard_beyond_its_end_is_ill_formed :
    (Instr.inboundFrameDiscard [0xC3, 1, 0, 0, 0, 0, 0, 0]).WellFormed = false ∧
      (Instr.inboundFrameDiscard [0xC3, 1, 0, 1, 4, 0]).WellFormed = false := by decide +kernel

theorem test_commands_within_the_checks_are_well_formed :
    (Instr.queryLine 0 (List.replicate 1024 0)).WellFormed = true ∧ (Instr.unknownKind 0x7F 0 []).WellFormed = true ∧
      (Instr.inboundFrameDiscard [0xC3, 1, 0, 0, 0, 0, 0]).WellFormed = true ∧
      (Instr.inboundFrameDiscard [0xC3, 1, 0, 1, 4]).WellFormed = true := by decide +kernel

theorem test_no_word_spells_a_command : decodeTableWord 16 0x0816 = none := rfl

/-! ## The manual's worked examples -/

/-- R177's check value: the CRC of the nine bytes 0x31 to 0x39. -/
theorem test_crc_check_value : crc16 [0x31, 0x32, 0x33, 0x34, 0x35, 0x36, 0x37, 0x38, 0x39] = 0x29B1#16 := by decide +kernel

/-- R18: a deskew of 5 ns takes 0 s and 3 ns to 281,474,976,710,655 s and 999,999,998 ns. -/
theorem test_deskew_wraps_below_zero :
    (TimeValue.add { seconds := 0, nanos := 3, quarters := 0 } (-20)) =
      { seconds := 281474976710655, nanos := 999999998, quarters := 0 } := by decide +kernel

/-- A part with its link UP, its START frame sent and nothing waiting. -/
def base : State :=
  let s := State.fresh { Pins.reset with linkSd := true } .released .powerOn []
  { s with link := { s.link with framer := .hunting, startOwed := none } }

/-- A descriptor of a line with this header window. -/
def frameOn (i : LineId) (window : List Byte) : Descriptor :=
  { line := i, stamp := base.reading, frameLength := 60, window := window }

/-- Lines L2, L3 and L5 with these numbers of descriptors on their FIFOs, and the line served last. -/
def queuedOn (l2 l3 l5 : Nat) (last : LineId) : State :=
  let put (i : LineId) (n : Nat) (s : State) := s.setLine i { s.line i with fifo := List.replicate n (frameOn i []) }
  let s := put 2 l2 (put 3 l3 (put 5 l5 base))
  { s with classifier := { s.classifier with lastServed := last } }

/-- The worked sequence of the grant order: L2a, L3a, L5a, L2b, and then none. -/
theorem test_grant_order :
    (queuedOn 2 0 1 7).grantLine = some 2 ∧ (queuedOn 1 1 1 2).grantLine = some 3 ∧ (queuedOn 1 0 1 3).grantLine = some 5 ∧
      (queuedOn 1 0 0 5).grantLine = some 2 ∧ (queuedOn 0 0 0 2).grantLine = none := by decide +kernel

/-- base with a frame in progress on L0 and on L5. -/
def receivingTwo : State :=
  let put (i : LineId) (s : State) := s.setLine i { s.line i with state := .active, signal := true, frame := some base.reading }
  put 0 (put 5 base)

/-- L5's frame, then L0's, end while the arbiter waits: L5 is granted first, and then L0; with a descriptor already queued on L3 no wait ends (R31). -/
theorem test_first_appended_is_granted_first :
    let both := (receivingTwo.portEnd 5 true (List.replicate 60 0)).portEnd 0 true (List.replicate 60 0)
    both.classifier.lastServed = 7 ∧ both.grantLine = some 5 ∧ both.grant.classifier.lastServed = 5 ∧ both.grant.grantLine = some 0 ∧
      (receivingTwo.portEnd 5 true (List.replicate 59 0)).grantLine = none ∧
      ((receivingTwo.setLine 3 { base.line 3 with fifo := [frameOn 3 []] }).portEnd 5 true (List.replicate 60 0)).classifier.firstIn = none := by
  decide +kernel

/-- The worked example of the selector table. -/
def exampleTable : Classifier :=
  let s := Classifier.reset.selectors
  let s := s.set 0 { valid := true, lineSet := 0b11, offset := 33, width := 1, mask := 0xFF, value := 0x31, feed := 3, leg := .a, mark := false }
  let s := s.set 1 { valid := true, lineSet := 0b10000, offset := 33, width := 1, mask := 0xFF, value := 0x32, feed := 3, leg := .b, mark := false }
  let s := s.set 2 { valid := true, lineSet := 0b10, offset := 36, width := 2, mask := 0xFFFF, value := 0x3A98, feed := 9, leg := .a, mark := false }
  let s := s.set 7 { valid := true, lineSet := 0b1000000, offset := 0, width := 1, mask := 0, value := 0, feed := 15, leg := .a, mark := true }
  { Classifier.reset with selectors := s }

/-- A window of 40 bytes with byte 33 and bytes 36 and 37 as given. -/
def groupWindow (b33 b36 b37 : Byte) : List Byte := List.replicate 33 0 ++ [b33, 0, 0, b36, b37, 0, 0]

/-- The feed, leg and mark that the example's table gives a window on a line. -/
def matchedTo (i : LineId) (window : List Byte) : Option (FeedId × Leg × Bool) :=
  (exampleTable.classify (frameOn i window)).held.map fun m => (m.feed, m.leg, m.mark)

theorem test_selector_table_example :
    matchedTo 1 (groupWindow 0x31 0x3A 0x98) = some (3, .a, false) ∧ matchedTo 1 (groupWindow 0x2F 0x3A 0x98) = some (9, .a, false) ∧
      matchedTo 6 (List.replicate 16 0) = some (15, .a, true) ∧ matchedTo 4 (groupWindow 0x31 0 0) = none ∧
      (exampleTable.classify (frameOn 4 (groupWindow 0x31 0 0))).unclaimed[4] = 1 := by decide +kernel

/-- The worked example of a packed decimal send time, and its four variations. -/
theorem test_packed_decimal_send_time :
    decodeDayDec [0x01, 0x43, 0x00, 0x51, 0x23, 0x45, 0x67, 0x89] = (.valid, some 52205123456789) ∧
      decodeDayDec [0x01, 0x43, 0x00, 0x5C, 0x23, 0x45, 0x67, 0x89] = (.badDigits, none) ∧
      decodeDayDec [0x01, 0x63, 0x00, 0x51, 0x23, 0x45, 0x67, 0x89] = (.valid, some 59405123456789) ∧
      (decodeDayDec [0x01, 0x93, 0x00, 0x51, 0x23, 0x45, 0x67, 0x89]).1 = .valid ∧
      decodeDayDec [0x02, 0x43, 0x00, 0x51, 0x23, 0x45, 0x67, 0x89] = (.outOfRange, none) := by decide +kernel

/-- The worked example of the latency across midnight, in DAY_NS and in SCALE_NS. -/
theorem test_latency_across_midnight :
    let stamp : Stamp := { value := { seconds := 1728000000, nanos := 400000, quarters := 0 }, epoch := 1, state := .free }
    latencyOf .dayNs stamp 86399999800000 = some 600000 ∧ latencyOf .scaleNs stamp 1727999999999800000 = some 600000 := by decide +kernel

/-- A time base TRACKING on REF B, QUALIFIED, its last accepted pulse at this local count, with this f and p, and now. -/
def trackingB (f p : Int) (last now : LocalCount) : State :=
  { base with
    time := { base.time with state := .tracking, f := f, p := p, localCount := now }
    monitors := { base.monitors with b := { enable := true, edge := .rising, deskew := 0, watch := .qualified last false, earlyPulses := 0 } }
    discipline := { base.discipline with policy := .b, followed := some .b } }

/-- f and p after the tracking law on a phase error in quarter-nanoseconds. -/
def lawTerms (f p e : Int) : Int × Int := (((trackingB f p 0 0).trackingLaw e).time.f, ((trackingB f p 0 0).trackingLaw e).time.p)

/-- The worked sequence of the tracking law over three pulses, in 1/16 ppb. -/
theorem test_tracking_law_over_three_pulses :
    lawTerms 0 0 3200 = (-400, -1600) ∧ lawTerms (-400) (-1600) 2700 = (-737, -1350) ∧ lawTerms (-737) (-1350) 2178 = (-1009, -1089) ∧
      lawTerms 0 0 12000000 = (0, 0) ∧ ((trackingB 0 0 0 0).trackingLaw 12000000).time.epoch = 1 := by decide +kernel

/-- The queue of the worked sequence of the reserved slot, with this many ordinary records. -/
def recordsQueued (n : Nat) : RecordQueue :=
  { RecordQueue.reset with
    entries := List.replicate n (.record { stamp := base.reading, body := .switch none none .policy }), armed := false }

/-- The worked sequence of the reserved slot: at 4,095 entries an ordinary record is lost, and the marker takes the 4,096th place. -/
theorem test_reserved_slot :
    let r : Record := { stamp := base.reading, body := .switch none none .policy }
    ((recordsQueued 4094).take r base.reading).1.entries.length = 4095 ∧ ((recordsQueued 4094).take r base.reading).1.lost = 0 ∧
      ((recordsQueued 4095).take r base.reading).1.entries.length = 4096 ∧ ((recordsQueued 4095).take r base.reading).1.lost = 1 ∧
      ((recordsQueued 4095).take r base.reading).2 = [.overflow] := by decide +kernel

/-- The START frame of R193 after a power-on: part code 0x0816, revision 1, cause POWER_ON, state UNSET. -/
theorem test_start_frame_bytes :
    (wireFrame startFrameKind 0 (startPayload .powerOn .unset)).take 10 = [0xC3, 0x83, 0, 5, 0, 0x16, 0x08, 1, ResetCause.code .powerOn, TimeState.code .unset] := by
  decide +kernel

/-! ## States that meet the statements' hypotheses -/

/-- Every request of the right length is admitted where the link and the request engine are as in base. -/
theorem admits {s : State} {kind : Byte} {payload : List Byte} (hl : s.link = base.link) (hr : s.resetHold.held = false)
    (h : requestLength kind = some payload.length) : s.Admits kind payload :=
  ⟨hr, by rw [hl]; rfl, by rw [hl]; decide, by rw [hl]; decide, h, by rw [hl]; rfl⟩

theorem of_none {α : Type} {o : Option α} {p : α → Prop} (h : o = none) : ∀ x, o = some x → p x := fun _ e => nomatch h.symm.trans e

theorem of_some {α : Type} {o : Option α} {p : α → Prop} {a : α} (h : o = some a) (ha : p a) : ∀ x, o = some x → p x := by
  intro x e; rw [h] at e; injection e with e; exact e ▸ ha

theorem of_nil {α : Type} {l : List α} {p : α → Prop} (h : l = []) : ∀ x ∈ l, p x := by rw [h]; simp

/-- A part held in reset by its line. -/
def heldPart : State := { base with resetHold := { held := true, powerOn := false, supplyDip := false, lineReset := true } }

theorem test_meets_EmptyQueueStepIsOneTick :
    base.pending = [] ∧ base.resetHold.held = false ∧ (∀ r, base.link.engine ≠ .executing r) ∧ base.time.slew = none ∧
      (∀ r : Int, r = 3 ∨ r = -3 → ∃ sl, ({ base with time := { base.time with slew := some { requested := r, applied := 0, rate := 1 } } } : State).time.slew
        = some sl ∧ sl.requested = r) := ⟨rfl, rfl, nofun, rfl, fun _ _ => ⟨_, rfl, rfl⟩⟩

theorem test_meets_WholePartResetsHoldAndRelease :
    heldPart.resetHold.held = true ∧ base.resetHold.held = false ∧
      (∀ cause : Bool × Bool, ({ heldPart with resetHold := { held := true, powerOn := cause.1, supplyDip := cause.2, lineReset := true } } : State).resetHold.held
        = true) ∧ (∀ i v, Instr.ingressGrant ≠ .lineSignalChange i v) ∧ Instr.ingressGrant ≠ .linkUp := by
  exact ⟨rfl, rfl, fun _ => rfl, fun _ _ => nofun, nofun⟩

theorem test_meets_RestartResetsAllButTime :
    let s : State := { base with link := { base.link with restartDue := true, framer := .ignoring } }
    s.resetHold.held = false ∧ s.link.restartDue = true := ⟨rfl, rfl⟩

/-! Line ports. -/

/-- A line port in a state with its signal level, and the quiet timer of INTEGRATING due at 5. -/
def port (st : LineState) (signal : Bool) : LinePort :=
  { LinePort.reset signal with state := st, quiet := if st = .integrating then some 5 else none }

/-- base with line L0 like this, at this local count. -/
def withLine (p : LinePort) (now : LocalCount) : State := { base.setLine 0 p with time := { base.time with localCount := now } }

/-- A port in ACTIVE with a frame in progress, a bad-run count and a number of descriptors. -/
def receivingPort (badRun : BitVec 8) (queued : Nat) : LinePort :=
  { port .active true with frame := some base.reading, badRun := badRun, fifo := List.replicate queued (frameOn 0 []) }

theorem test_meets_LineFollowsItsSignalAndTimer :
    ((withLine (port .disabled false) 0).line 0).state = .disabled ∧ ((withLine (port .down false) 0).line 0).state = .down ∧
      ((withLine (port .integrating true) 0).line 0).state = .integrating ∧ ((withLine (port .active true) 0).line 0).state = .active ∧
      ((withLine (port .integrating true) 5).line 0).quiet = some 5 ∧ reached 5 (withLine (port .integrating true) 5).now = true := by
  decide +kernel

theorem test_meets_StartOfFrame :
    (withLine (port .down false) 0).resetHold.held = false ∧ ((withLine (port .down false) 0).line 0).state = .down ∧
      ((withLine (port .integrating true) 0).line 0).state = .integrating ∧ ((withLine (port .active true) 0).line 0).state = .active ∧
      ((withLine (receivingPort 0 0) 0).line 0).frame.isSome = true := by decide +kernel

/-- Lengths 59, 60, 1,522 and 1,523 about the default limits; 15 and 16 descriptors; a bad run of 6, 7 and 255 with the limits 8 and 0. -/
theorem test_meets_EndOfFrameJudged :
    ((withLine (port .active true) 0).line 0).frame = none ∧ ((withLine (port .integrating true) 0).line 0).frame = none ∧
      ((withLine (receivingPort 6 15) 0).line 0).frame = some base.reading ∧ ((withLine (receivingPort 6 15) 0).line 0).fifo.length < 16 ∧
      16 ≤ ((withLine (receivingPort 6 16) 0).line 0).fifo.length ∧
      (List.replicate 59 (0 : Byte)).length < ((withLine (receivingPort 6 15) 0).line 0).config.minLength ∧
      ((withLine (receivingPort 6 15) 0).line 0).config.minLength ≤ (List.replicate 60 (0 : Byte)).length ∧
      (List.replicate 1522 (0 : Byte)).length ≤ ((withLine (receivingPort 6 15) 0).line 0).config.maxLength ∧
      ((withLine (receivingPort 6 15) 0).line 0).config.maxLength < (List.replicate 1523 (0 : Byte)).length ∧
      ((withLine (receivingPort 6 0) 0).line 0).badRun.toNat + 1 ≠ ((withLine (receivingPort 6 0) 0).line 0).config.badRunLimit ∧
      ((withLine (receivingPort 7 0) 0).line 0).badRun.toNat + 1 = ((withLine (receivingPort 7 0) 0).line 0).config.badRunLimit := by
  decide +kernel

/-- The arbiter waits, and does not: every FIFO empty, one of them filled, the classifier busy. -/
theorem test_meets_EndOfFrameJudged_waiting :
    receivingTwo.classifier.held = none ∧ (∀ j, (receivingTwo.line j).fifo = []) ∧ ((withLine (receivingPort 6 15) 0).line 0).fifo ≠ [] ∧
      ({ base.classifier with held := some { descriptor := frameOn 0 [], feed := 0, leg := .a, mark := false } } : Classifier).held ≠ none := by
  decide +kernel

theorem test_meets_LinesAreEnabledAndDisabled :
    (withLine (port .disabled true) 0).Admits 0x01 [0] ∧ (withLine (port .disabled false) 0).Admits 0x02 [0] ∧ base.Admits 0x01 [8] ∧
      ((withLine (port .disabled true) 0).line 0).signal = true ∧ ((withLine (port .disabled false) 0).line 0).signal = false ∧
      ((withLine (port .active true) 0).line 0).state ≠ .disabled ∧ (7 : Byte).toNat = (7 : LineId).val ∧ 8 ≤ (8 : Byte).toNat := by
  refine ⟨admits rfl rfl rfl, admits rfl rfl rfl, admits rfl rfl rfl, ?_⟩; decide +kernel

/-- The least and the greatest values that CONFIGURE LINE accepts. -/
theorem test_meets_LineIsConfigured :
    LineConfig.InRange { deskew := 0, integration := 1, minLength := 16, maxLength := 64, badRunLimit := 0 } ∧
      LineConfig.InRange { deskew := 262143, integration := 10000, minLength := 1024, maxLength := 9600, badRunLimit := 255 } ∧
      base.Admits 0x03 (7 :: LineConfig.reset.bytes) ∧ base.Admits 0x03 (8 :: LineConfig.reset.bytes) ∧
      ((withLine (port .disabled true) 0).line 0).state = .disabled ∧ ((withLine (port .down true) 0).line 0).state ≠ .disabled := by
  refine ⟨?_, ?_, admits rfl rfl rfl, admits rfl rfl rfl, ?_⟩ <;> first | decide +kernel | (unfold LineConfig.InRange; decide +kernel)


/-! Classification and hand-over. -/

/-- A selector entry for byte 0 of line L2's frames. -/
def entryFor (value : BitVec 32) : Selector := { Selector.reset with valid := true, lineSet := 0b100, mask := 0xFF, value := value }

/-- base with one descriptor waiting on L2, its first byte 1, and entry 31 written. -/
def granting (e : Selector) : State :=
  let s := base.setLine 2 { base.line 2 with fifo := [frameOn 2 (1 :: List.replicate 15 0)] }
  { s with classifier := { s.classifier with selectors := s.classifier.selectors.set 31 e } }

/-- Line L2 is the first with a descriptor; entry 31 alone matches it, or none does. -/
theorem test_meets_GrantServesNextLine :
    (∀ j : LineId, ((granting (entryFor 1)).line j).fifo ≠ [] →
      (2 - (granting (entryFor 1)).classifier.lastServed - 1 : LineId).val ≤ (j - (granting (entryFor 1)).classifier.lastServed - 1).val) ∧
      (granting (entryFor 1)).classifier.held = none ∧ (granting (entryFor 1)).classifier.selectors[31].Matches (frameOn 2 (1 :: List.replicate 15 0)) ∧
      (∀ k' < (31 : Fin 32), ¬ (granting (entryFor 1)).classifier.selectors[k'].Matches (frameOn 2 (1 :: List.replicate 15 0))) ∧
      (∀ k : Fin 32, ¬ (granting (entryFor 2)).classifier.selectors[k].Matches (frameOn 2 (1 :: List.replicate 15 0))) ∧
      (∀ i, (base.line i).fifo = []) ∧ (granting (entryFor 1)).classifier.firstIn = none := by
  unfold Selector.Matches; decide +kernel

/-- Line L2 ended the arbiter's wait. -/
theorem test_meets_GrantServesNextLine_first :
    let s : State := { granting (entryFor 1) with classifier := { (granting (entryFor 1)).classifier with firstIn := some 2 } }
    s.resetHold.held = false ∧ s.classifier.held = none ∧ s.classifier.firstIn = some 2 ∧
      (s.line 2).fifo = [frameOn 2 (1 :: List.replicate 15 0)] := by decide +kernel

/-- The widest field at the last place of the window, and the narrowest. -/
theorem test_meets_SelectorsWrittenClearedRead :
    Selector.InRange { Selector.reset with lineSet := 1, offset := 252, width := 4, mask := 0xFFFFFFFF, value := 0xFFFFFFFF } ∧
      Selector.InRange { Selector.reset with lineSet := 0x80, offset := 255, width := 1, mask := 0xFF, value := 0xFF } ∧
      base.Admits 0x08 (31 :: (entryFor 1).bytes) ∧ base.Admits 0x08 (32 :: (entryFor 1).bytes) ∧ base.Admits 0x09 [31] ∧ base.Admits 0x0A [32] ∧
      (31 : Byte).toNat = (31 : Fin 32).val ∧ 32 ≤ (32 : Byte).toNat := by
  refine ⟨?_, ?_, admits rfl rfl rfl, admits rfl rfl rfl, admits rfl rfl rfl, admits rfl rfl rfl, ?_⟩ <;> first | decide +kernel | (unfold Selector.InRange; decide +kernel)

theorem test_meets_QueriesOnlyAnswer :
    base.Admits 0x04 [7] ∧ base.Admits 0x04 [8] ∧ base.Admits 0x13 [15] ∧ base.Admits 0x13 [16] ∧ base.Admits 0x1C [] ∧ base.Admits 0x31 [] ∧
      (7 : Byte).toNat = (7 : LineId).val ∧ (15 : Byte).toNat = (15 : FeedId).val :=
  ⟨admits rfl rfl rfl, admits rfl rfl rfl, admits rfl rfl rfl, admits rfl rfl rfl, admits rfl rfl rfl, admits rfl rfl rfl, rfl, rfl⟩

theorem test_meets_LatencyIsTheDifference :
    86399999999999 < 86400000000000 ∧ (SendFormat.dayNs = .dayNs ∨ SendFormat.dayNs = .dayDec) := ⟨by decide, .inl rfl⟩

/-! Arrivals: feed F0, and a descriptor of L0 with a sequence number in its first four bytes. -/

/-- A 16-byte window with a sequence number at its start, most significant byte first. -/
def numbered (n : SeqNum) : List Byte := (leBytes 4 n.toNat).reverse ++ List.replicate 12 0

/-- The matched descriptor of a number on a leg. -/
def matchedCopy (leg : Leg) (n : SeqNum) : Matched := { descriptor := frameOn 0 (numbered n), feed := 0, leg := leg, mark := false }

/-- The arrival it becomes. -/
def copyOf (leg : Leg) (n : SeqNum) : Arrival :=
  arrivalOf .reset (matchedCopy leg n) (BitVec.ofNat 32 (beNat ((numbered n).take 4)))

/-- A RUNNING feed that expects this number. -/
def feedAt (e : SeqNum) : Feed :=
  { Feed.reset with state := .running e, legA := { state := .active, deadline := some 9 }, legB := { state := .waiting, deadline := some 9 } }

/-- base with feed F0 like this, and a matched descriptor that waits for its hand-over. -/
def handing (f : Feed) (m : Matched) : State :=
  let s := base.setFeed 0 f
  { s with classifier := { s.classifier with held := some m } }

theorem numbered_take (n : SeqNum) : beNat ((numbered n).take 4) = n.toNat := by
  have h : (numbered n).take 4 = (leBytes 4 n.toNat).reverse := by simp [numbered, leBytes]
  rw [h]
  simp only [leBytes, List.reverse_cons, List.reverse_nil, List.nil_append, List.cons_append, beNat, List.foldl_cons, List.foldl_nil, BitVec.toNat_ofNat]
  omega

theorem copyOf_number (leg : Leg) (n : SeqNum) : (copyOf leg n).number = n := by
  show BitVec.ofNat 32 (beNat ((numbered n).take 4)) = n
  rw [numbered_take]; simp

theorem feed_handing (f : Feed) (m : Matched) : (handing f m).feed 0 = f := rfl

/-- A feed with the default profile may take the copy. -/
theorem handsOver {f : Feed} (h : f.profile = .reset) (leg : Leg) (n : SeqNum) :
    (handing f (matchedCopy leg n)).HandsOver (matchedCopy leg n) (copyOf leg n) := by
  have hp : ((handing f (matchedCopy leg n)).feed (matchedCopy leg n).feed).profile = .reset := h
  refine ⟨rfl, rfl, ?_, ?_⟩
  · rw [hp]; show 4 ≤ (numbered n).length; simp [numbered, leBytes]
  · rw [hp]; rfl

/-- A record of a number first seen on leg A, whose pairing time ends at 5. -/
def heldA (n : SeqNum) : HeldRecord :=
  { number := n, first := (copyOf .a n).copy, twin := none,
    flags := { lateFill := false, repeatSeen := false, mark := false, restartBase := false }, deadline := 5 }

/-- The same, paired. -/
def pairedA (n : SeqNum) : HeldRecord := { heldA n with twin := some { line := 4, stamp := base.reading } }

/-- A range of numbers whose gap time ends at 5. -/
def gapOf (first last : SeqNum) : GapRange := { first := first, last := last, opened := base.reading, deadline := 5 }

/-- A window one byte too short for the default profile's number, and a CLOSED feed. -/
theorem test_meets_HandOverWithoutArrival :
    base.classifier.held = none ∧ ((handing .reset (matchedCopy .a 7)).feed 0).state = .closed ∧
      ((handing (feedAt 7) { matchedCopy .a 7 with descriptor := frameOn 0 [0, 0, 0] }).feed 0).state ≠ .closed ∧
      [(0 : Byte), 0, 0].length < ((handing (feedAt 7) (matchedCopy .a 7)).feed 0).profile.seqOffset + (feedAt 7).profile.seqWidth := by
  decide +kernel

/-- Every entry of the pool taken by feed F1. -/
def poolTaken : State := base.setFeed 1 { feedAt 7 with hold := List.replicate 1024 (heldA 7) }

theorem test_meets_CreatedRecordIsHeldOrBypasses : 0 < base.freeCount ∧ poolTaken.freeCount = 0 := by decide +kernel

theorem test_meets_FirstArrivalStartsFeed :
    (handing { feedAt 0 with state := .armed } (matchedCopy .a 0xFFFFFFFF)).HandsOver (matchedCopy .a 0xFFFFFFFF) (copyOf .a 0xFFFFFFFF) ∧
      ({ feedAt 0 with state := .armed } : Feed).hold = [] := ⟨handsOver rfl .a _, rfl⟩

/-- A feed with nothing on its lists has seen no number. -/
theorem unseen (e n : SeqNum) : (feedAt e).Unseen n := ⟨of_none rfl, of_nil rfl, of_nil rfl⟩

/-- In order; behind E by 1, and by L = 65,536. -/
theorem test_meets_InOrderAndLateArrivals :
    (handing (feedAt 7) (matchedCopy .a 7)).HandsOver (matchedCopy .a 7) (copyOf .a 7) ∧
      (feedAt 7).state = .running (copyOf .a 7).number ∧ (feedAt 7).Unseen (copyOf .a 7).number ∧
      (handing (feedAt 7) (matchedCopy .a 6)).HandsOver (matchedCopy .a 6) (copyOf .a 6) ∧
      2 ^ 31 ≤ ((copyOf .a 6).number - 7).toNat ∧ 2 ^ 32 - ((copyOf .a 6).number - 7).toNat ≤ (feedAt 7).profile.jumpLimit ∧
      2 ^ 31 ≤ ((copyOf .a 0xFFFF0007).number - 7).toNat ∧ 2 ^ 32 - ((copyOf .a 0xFFFF0007).number - 7).toNat = (feedAt 7).profile.jumpLimit :=
  ⟨handsOver rfl .a _, by decide +kernel, unseen _ _, handsOver rfl .a _, by decide +kernel⟩

/-- Ahead of E by 1, and by L; three and four ranges open. -/
theorem test_meets_AheadArrivalOpensGap :
    (handing (feedAt 7) (matchedCopy .a 8)).HandsOver (matchedCopy .a 8) (copyOf .a 8) ∧ (feedAt 7).Unseen (copyOf .a 8).number ∧
      ((copyOf .a 8).number - 7).toNat = 1 ∧ ((copyOf .a 65543).number - 7).toNat = (feedAt 7).profile.jumpLimit ∧
      (handing { feedAt 7 with gaps := List.replicate 4 (gapOf 1 2) } (matchedCopy .a 8)).HandsOver (matchedCopy .a 8) (copyOf .a 8) ∧
      ({ feedAt 7 with gaps := List.replicate 4 (gapOf 1 2) } : Feed).Unseen (copyOf .a 8).number ∧
      4 ≤ (List.replicate 4 (gapOf 1 2)).length ∧ (List.replicate 3 (gapOf 1 2)).length < 4 :=
  ⟨handsOver rfl .a _, unseen _ _, by decide +kernel, by decide +kernel, handsOver rfl .a _, ⟨of_none rfl, of_nil rfl, by decide +kernel⟩,
    by decide +kernel⟩

/-- E at 2^30: number 0 has aged and number 1 has not; the chain takes a paired record and stops at one that is not due. -/
theorem test_meets_AgingReleasesWhatLiesFarBehind :
    isAged (BitVec.ofNat 32 (2 ^ 30)) 0 = true ∧ isAged (BitVec.ofNat 32 (2 ^ 30)) 1 = false ∧
      ({ feedAt 0 with hold := [heldA 0, pairedA 1, heldA 2] } : Feed).hold = [heldA 0] ++ [pairedA 1, heldA 2] ∧
      (∀ h ∈ [pairedA 1, heldA 2], isAged (BitVec.ofNat 32 (2 ^ 30)) h.number = false) ∧ ChainsTo 0 [pairedA 1, heldA 2] [pairedA 1] [heldA 2] ∧
      ChainsTo 5 [pairedA 1, heldA 2] [pairedA 1, heldA 2] [] :=
  ⟨by decide +kernel, by decide +kernel, rfl, by decide +kernel, ⟨rfl, by decide +kernel, of_some rfl (by decide +kernel)⟩,
    ⟨rfl, by decide +kernel, of_none rfl⟩⟩

/-- The twin of a head and of a record behind it; a copy on the record's own leg, and one of a paired record. -/
theorem test_meets_CopyOfHeldNumber :
    (handing { feedAt 9 with hold := [heldA 7, heldA 8] } (matchedCopy .b 7)).HandsOver (matchedCopy .b 7) (copyOf .b 7) ∧
      (heldA 7).number = (copyOf .b 7).number ∧ (heldA 7).twin = none ∧ (heldA 7).first.leg ≠ (copyOf .b 7).copy.leg ∧
      ChainsTo 0 [heldA 8] [] [heldA 8] ∧ (∀ x ∈ [heldA 7], x.number ≠ (copyOf .b 8).number) ∧ (heldA 8).number = (copyOf .b 8).number ∧
      (heldA 7).first.leg = (copyOf .a 7).copy.leg ∧ (pairedA 7).twin ≠ none :=
  ⟨handsOver rfl .b _, by decide +kernel, by decide +kernel, by decide +kernel, ⟨rfl, by decide +kernel, of_some rfl (by decide +kernel)⟩,
    by decide +kernel, by decide +kernel, by decide +kernel, by decide +kernel⟩

/-- A range of one number, the ends and the inside of a longer one, and a full list with and without a range before it. -/
theorem test_meets_LateFillTakesItsNumber :
    (handing { feedAt 9 with gaps := [gapOf 3 5] } (matchedCopy .a 4)).HandsOver (matchedCopy .a 4) (copyOf .a 4) ∧
      ((copyOf .a 4).number - (gapOf 3 5).first).toNat ≤ ((gapOf 3 5).last - (gapOf 3 5).first).toNat ∧
      (copyOf .a 4).number ≠ (gapOf 3 5).first ∧ (copyOf .a 4).number ≠ (gapOf 3 5).last ∧
      (copyOf .a 3).number = (gapOf 3 5).first ∧ (copyOf .a 5).number = (gapOf 3 5).last ∧
      (copyOf .a 4).number = (gapOf 4 4).first ∧ (copyOf .a 4).number = (gapOf 4 4).last ∧
      (∀ x ∈ [gapOf 0 1], x.holds (copyOf .a 4).number = false) ∧ 4 ≤ ([] ++ gapOf 3 5 :: List.replicate 3 (gapOf 7 7)).length ∧
      4 ≤ ([gapOf 0 1] ++ gapOf 3 5 :: List.replicate 2 (gapOf 7 7)).length :=
  ⟨handsOver rfl .a _, by decide +kernel⟩

/-- Just beyond L on both sides of E; a copy of the candidate's own number. -/
theorem test_meets_CandidateIsTakenAndMet :
    (handing (feedAt 7) (matchedCopy .a 65544)).HandsOver (matchedCopy .a 65544) (copyOf .a 65544) ∧ (feedAt 7).Unseen (copyOf .a 65544).number ∧
      beyond (feedAt 7).profile.jumpLimit 7 (copyOf .a 65544).number = true ∧ beyond (feedAt 7).profile.jumpLimit 7 (copyOf .a 65543).number = false ∧
      beyond (feedAt 7).profile.jumpLimit 7 (copyOf .a 0xFFFF0006).number = true ∧
      (handing { feedAt 7 with candidate := some (heldA 99999) } (matchedCopy .b 99999)).HandsOver (matchedCopy .b 99999) (copyOf .b 99999) ∧
      (heldA 99999).number = (copyOf .b 99999).number ∧ (heldA 99999).first.leg ≠ (copyOf .b 99999).copy.leg ∧ (pairedA 99999).twin ≠ none :=
  ⟨handsOver rfl .a _, unseen _ _, by decide +kernel, by decide +kernel, by decide +kernel, handsOver rfl .b _, by decide +kernel, by decide +kernel,
    by decide +kernel⟩

/-- 1 and 16 ahead of the candidate; an unpaired candidate due and not due, and a paired one. -/
theorem test_meets_RestartIsConfirmed :
    (handing { feedAt 7 with candidate := some (heldA 99999) } (matchedCopy .a 100000)).HandsOver (matchedCopy .a 100000) (copyOf .a 100000) ∧
      ((copyOf .a 100000).number - (heldA 99999).number).toNat = 1 ∧ ((copyOf .a 100015).number - (heldA 99999).number).toNat = 16 ∧
      reached (heldA 99999).deadline 4 = false ∧ reached (heldA 99999).deadline 5 = true ∧ (pairedA 99999).twin ≠ none ∧
      0 < (handing (feedAt 7) (matchedCopy .a 100000)).freeCount :=
  ⟨handsOver rfl .a _, by decide +kernel⟩

/-! Timers of the feeds. -/

/-- base with feed F0 like this, at this local count. -/
def withFeed (f : Feed) (now : LocalCount) : State := { base.setFeed 0 f with time := { base.time with localCount := now } }

theorem test_meets_PairingAndGapTimersExpire :
    (base.feed 0).hold = [] ∧ ((withFeed { feedAt 9 with hold := [pairedA 7] } 5).feed 0).hold = [pairedA 7] ∧
      reached (heldA 7).deadline (withFeed (feedAt 9) 4).now = false ∧ reached (heldA 7).deadline (withFeed (feedAt 9) 5).now = true ∧
      ChainsTo (withFeed (feedAt 9) 5).now [heldA 7, pairedA 8, { heldA 9 with deadline := 6 }] (heldA 7 :: [pairedA 8]) [{ heldA 9 with deadline := 6 }] ∧
      (∀ g ∈ [gapOf 1 2], reached g.deadline (withFeed (feedAt 9) 5).now = true) ∧ reached 6 (withFeed (feedAt 9) 5).now = false :=
  ⟨rfl, rfl, by decide +kernel, by decide +kernel, ⟨rfl, by decide +kernel, of_some rfl (by decide +kernel)⟩, by decide +kernel, by decide +kernel⟩

theorem test_meets_CandidatesAndLegsExpire :
    ((withFeed { feedAt 7 with candidate := some (heldA 99999) } 5).feed 0).candidate = some (heldA 99999) ∧
      reached (heldA 99999).deadline (withFeed (feedAt 7) 5).now = true ∧ reached (heldA 99999).deadline (withFeed (feedAt 7) 4).now = false ∧
      ((withFeed (feedAt 7) 9).feed 0).leg .a = { state := .active, deadline := some 9 } ∧
      ((withFeed (feedAt 7) 9).feed 0).leg .b = { state := .waiting, deadline := some 9 } ∧ reached 9 (withFeed (feedAt 7) 9).now = true ∧
      reached 9 (withFeed (feedAt 7) 8).now = false := by decide +kernel

/-- The deadline reached by the moment, and by one nanosecond not. -/
theorem test_meets_StatisticsAreOffered :
    let s : State := { withFeed (feedAt 7) 9 with queue := { RecordQueue.reset with period := 1, statsDeadline := some 9 } }
    s.resetHold.held = false ∧ s.queue.statsDeadline = some 9 ∧ reached 9 s.now = true ∧ reached 10 s.now = false ∧
      base.queue.statsDeadline = none := by decide +kernel

/-! Feed requests. -/

/-- The least and the greatest values that CONFIGURE FEED accepts; feeds F15 and 16. -/
theorem test_meets_FeedIsConfiguredAndOpened :
    Profile.InRange { Profile.reset with seqOffset := 254, seqWidth := 2, sendOffset := 255, pairing := 1, gap := 1, silence := 1, jumpLimit := 1 } ∧
      Profile.InRange { Profile.reset with seqOffset := 248, seqWidth := 8, sendOffset := 248, sendFormat := .dayDec, pairing := 65535, gap := 65535,
                                           silence := 65535, jumpLimit := 1048576 } ∧
      base.Admits 0x10 (15 :: Profile.reset.bytes) ∧ base.Admits 0x10 (16 :: Profile.reset.bytes) ∧ base.Admits 0x11 [15] ∧ base.Admits 0x11 [16] ∧
      (base.feed 15).state = .closed ∧ ((withFeed (feedAt 7) 0).feed 0).state ≠ .closed ∧ (withFeed (feedAt 7) 0).Admits 0x11 [0] := by
  refine ⟨?_, ?_, admits rfl rfl rfl, admits rfl rfl rfl, admits rfl rfl rfl, admits rfl rfl rfl, ?_, ?_, admits rfl rfl rfl⟩
  all_goals first | decide +kernel | (unfold Profile.InRange; decide +kernel)

theorem test_meets_FeedIsClosed :
    (withFeed { feedAt 9 with hold := [heldA 7], gaps := [gapOf 1 2] } 0).Admits 0x12 [0] ∧ (0 : Byte).toNat = (0 : FeedId).val ∧
      ((withFeed (feedAt 9) 0).feed 0).state ≠ .closed ∧ (base.feed 0).state = .closed ∧ base.Admits 0x12 [16] :=
  ⟨admits rfl rfl rfl, rfl, by decide +kernel, by decide +kernel, admits rfl rfl rfl⟩

/-! Time base. -/

/-- base in a time-base state, with a slew in flight or none. -/
def timed (st : TimeState) (slew : Option SlewFlight) : State := { base with time := { base.time with state := st, slew := slew } }

/-- A slew of 3 ns at 1 ppb that has applied this much, in units of 1/16 of 10^-9 ns (of 1/4 ns times 4 × 10^9). -/
def slewOf3 (applied : Int) : SlewFlight := { requested := 3, applied := applied, rate := 1 }

/-- Every time-base state, with and without a slew; amounts at −2^42, 2^42, and one beyond each. -/
theorem test_meets_TimeIsStepped :
    (timed .free none).Admits 0x18 TimeValue.zero.block ∧ (timed .holdover (some (slewOf3 0))).Admits 0x18 TimeValue.zero.block ∧
      (timed .unset none).Admits 0x18 TimeValue.zero.block ∧ (timed .free none).time.state ≠ .unset ∧
      (timed .free none).Admits 0x19 (leSigned 8 (2 ^ 42)) ∧ (timed .free none).Admits 0x19 (leSigned 8 (-(2 ^ 42))) ∧
      (timed .free none).Admits 0x19 (leSigned 8 (2 ^ 42 + 1)) ∧ (timed .unset none).Admits 0x19 (leSigned 8 0) ∧
      (timed .free (some (slewOf3 12000000000))).Admits 0x19 (leSigned 8 1) ∧ (timed .free (some (slewOf3 12000000000))).time.state ≠ .unset ∧
      (slewOf3 12000000000).applied = (slewOf3 12000000000).requested * 4000000000 ∧
      (slewOf3 0).applied ≠ (slewOf3 0).requested * 4000000000 :=
  ⟨admits rfl rfl rfl, admits rfl rfl rfl, admits rfl rfl rfl, by decide, admits rfl rfl rfl, admits rfl rfl rfl, admits rfl rfl rfl,
    admits rfl rfl rfl, admits rfl rfl rfl, by decide, by decide +kernel, by decide +kernel⟩

/-- R129 and R134: a SET TIME behind a slew at its goal ends it COMPLETE before the STEP record; one unit short of it, STEPPED behind, with one
quarter-nanosecond less. -/
theorem test_step_and_completion :
    (((timed .free (some (slewOf3 12000000000))).stepTo .set .zero).queue.entries.map fun | .record r => some r.body | .marker _ => none) =
        [some (.slewEnd .complete 3 3 1), some (.step .set .zero .zero 1)] ∧
      (((timed .free (some (slewOf3 11999999999))).stepTo .set .zero).queue.entries.map fun | .record r => some r.body | .marker _ => none) =
        [some (.step .set .zero .zero 1), some (.slewEnd .stepped 3 2 1)] := by decide +kernel

/-- The largest amount and rate that f = 0 admits, and a rate of 200,001; a slew in flight and none; applied what was asked, and one unit less. -/
theorem test_meets_SlewStartsAndEnds :
    (timed .free none).Admits 0x1A (leSigned 4 2000000000 ++ leBytes 4 200000) ∧
      ((timed .free none).time.f.natAbs + 16 * 200000 ≤ 3200000 ∧ ¬ (timed .free none).time.f.natAbs + 16 * 200001 ≤ 3200000) ∧
      (timed .tracking none).Admits 0x1A (leSigned 4 (-1) ++ leBytes 4 1) ∧ (timed .holdover (some (slewOf3 0))).Admits 0x1A (leSigned 4 0 ++ leBytes 4 0) ∧
      (slewOf3 12000000000).applied = (slewOf3 12000000000).requested * 4000000000 ∧
      (slewOf3 11999999999).applied ≠ (slewOf3 11999999999).requested * 4000000000 :=
  ⟨admits rfl rfl rfl, by decide +kernel, admits rfl rfl rfl, admits rfl rfl rfl, by decide +kernel, by decide +kernel⟩

/-- Slews one unit short of 3 and of −3 quarter-nanoseconds, in a sound state. -/
theorem test_meets_SlewStartsAndEnds_short (up : Bool) :
    (timed .free (some { slewOf3 0 with requested := if up then 3 else -3, applied := if up then 11999999999 else -11999999999 })).TimeSound := by
  refine ⟨⟨by cases up <;> decide, by cases up <;> decide, by cases up <;> decide, by cases up <;> decide, ?_⟩,
    ⟨by cases up <;> rfl, by cases up <;> decide, by cases up <;> decide, by cases up <;> decide⟩, of_none (by cases up <;> rfl), by cases up <;> decide⟩
  intro sl h
  cases up <;> (injection h with h; subst h; unfold SlewFlight.Sound; decide)

/-- f at ±100,000 ppb and one unit beyond; a slew at 200,000 ppb leaves no room for any f. -/
theorem test_meets_RateIsSet :
    (timed .free none).Admits 0x1B (leSigned 4 1600000) ∧ (1600000 : Int).natAbs ≤ 100000 * 16 ∧ 100000 * 16 < (-1600001 : Int).natAbs ∧
      (timed .tracking none).Admits 0x1B (leSigned 4 1) ∧ (timed .free (some { slewOf3 0 with rate := 200000 })).Admits 0x1B (leSigned 4 1) ∧
      200000 * 16 < (1 : Int).natAbs + 16 * 200000 ∧ (1600000 : Int).natAbs + 16 * 100000 ≤ 200000 * 16 :=
  ⟨admits rfl rfl rfl, by decide, by decide, admits rfl rfl rfl, admits rfl rfl rfl, by decide, by decide⟩

/-! References and discipline. -/

/-- base with REF A like this, FREE under policy NONE, at this local count. -/
def watching (w : Watch) (now : LocalCount) : State :=
  { base with
    time := { base.time with state := .free, localCount := now }
    monitors := { base.monitors with a := { enable := true, edge := .rising, deskew := 0, watch := w, earlyPulses := 0 } } }

theorem following_watching {w : Watch} (now : LocalCount) : (watching w now).Following :=
  ⟨rfl, ⟨nofun, nofun⟩, nofun, ⟨nofun, nofun⟩⟩

/-- The first pulse; an interval of one second less W, and of one nanosecond less; one plus W; k at 2 and at Q − 1. -/
theorem test_meets_PulsesBeforeQualified :
    (watching .absent 0).Following ∧ ((watching .absent 0).monitor .a).watch = .absent ∧ ((watching .absent 0).monitor .a).edge = .rising ∧
      ((watching .absent 0).monitor .a).edge ≠ .falling ∧ (base.monitor .a).watch = .off ∧
      ((watching (.qualifying 2 0) 999900000).monitor .a).watch = .qualifying 2 0 ∧
      1000000000 - (watching (.qualifying 2 0) 0).discipline.params.window * 1000 = 999900000 ∧
      1000000000 + (watching (.qualifying 2 0) 0).discipline.params.window * 1000 = 1000100000 ∧
      2 + 1 < (watching .absent 0).discipline.params.count ∧ (watching .absent 0).discipline.params.count ≤ 3 + 1 := by
  refine ⟨following_watching _, ?_⟩; decide +kernel

/-- REF A and REF B QUALIFIED or not, under a policy, followed so, in a time-base state. -/
def choosing (a b : Bool) (policy : Policy) (followed : Option RefId) (st : TimeState) : State :=
  let m (q : Bool) : Monitor := { enable := true, edge := .rising, deskew := 0, watch := if q then .qualified 0 false else .absent, earlyPulses := 0 }
  { timed st none with monitors := { a := m a, b := m b }, discipline := { base.discipline with policy := policy, followed := followed } }

theorem test_meets_RechoiceMovesTheTimeBase :
    (watching .absent 0).Following ∧ (choosing true false .a none .free).choice = some .a ∧
      (choosing true false .a none .free).discipline.followed = none ∧ (timed .free (some (slewOf3 0))).time.slew = some (slewOf3 0) ∧
      (choosing false false .aThenB (some .a) .tracking).choice = none ∧ (choosing true true .none (some .a) .tracking).choice = none ∧
      (choosing false true .aThenB (some .a) .tracking).choice = some .b ∧ (choosing false false .none none .holdover).choice = none ∧
      (choosing false false .none none .holdover).time.state = .holdover := by
  refine ⟨following_watching _, ?_⟩; decide +kernel

/-- Half a second after the last accepted pulse, with and without an early pulse pending; the timeout's deadline and one nanosecond before it. -/
theorem test_meets_EarlyPulsesAndTimeouts :
    ((watching (.qualified 0 false) 500000000).monitor .a).watch = .qualified 0 false ∧
      ((watching (.qualified 0 true) 500000000).now - 0).toNat < 1000000000 - (watching (.qualified 0 true) 0).discipline.params.window * 1000 ∧
      ((watching (.qualified 0 true) 0).monitor .a).watch.last = some 0 ∧ reached (after 0 (1000000000 + 100 * 1000)) 1000100000 = true ∧
      reached (after 0 (1000000000 + 100 * 1000)) 1000099999 = false ∧ ((watching .absent 0).monitor .a).watch.last = none := by decide +kernel

/-- An accepted pulse of the followed reference; an error of T, and of a quarter-nanosecond more. -/
theorem test_meets_TrackingLawCorrectsTheRate :
    ((trackingB 0 0 0 1000000000).monitor .b).watch = .qualified 0 false ∧ (trackingB 0 0 0 1000000000).discipline.followed = some .b ∧
      (trackingB 0 0 0 1000000000).time.state = .tracking ∧ (trackingB 0 0 0 1000000000).time.slew = none ∧
      (trackingB 0 0 0 1000000000).discipline.measurement = none ∧ ((trackingB 0 0 0 1000000000).now - 0).toNat = 1000000000 ∧
      ((4000000 : Int).natAbs : Int) ≤ (trackingB 0 0 0 0).discipline.params.threshold * 4000 ∧
      (trackingB 0 0 0 0).discipline.params.threshold * 4000 < ((-4000001 : Int).natAbs : Int) ∧
      (trackingB 0 0 0 0).discipline.params.stepPermitted = true := by decide +kernel

/-- A holdover entered at 0 with a limit of one second, at its deadline and one nanosecond before. -/
theorem test_meets_HoldoverExpires :
    let s : State := { timed .holdover none with discipline := { base.discipline with holdoverEntry := some 0, params := { DisciplineParams.reset with holdoverLimit := 1 } } }
    s.resetHold.held = false ∧ s.time.state = .holdover ∧ 0 < s.discipline.params.holdoverLimit ∧ s.discipline.holdoverEntry = some 0 ∧
      reached (after 0 (s.discipline.params.holdoverLimit * 1000000000)) 1000000000 = true ∧
      reached (after 0 (s.discipline.params.holdoverLimit * 1000000000)) 999999999 = false ∧ base.time.state ≠ .holdover := by decide +kernel

/-- REF A in every state; the largest deskew. -/
theorem test_meets_ReferenceIsConfigured :
    base.Admits 0x20 (refCode (some .a) :: boolCode true :: leBytes 4 262143 ++ [0]) ∧
      (watching .absent 0).Admits 0x20 (refCode (some .a) :: boolCode false :: leBytes 4 0 ++ [1]) ∧ 262143 ≤ 262143 ∧ (base.monitor .a).watch = .off ∧
      ((watching .absent 0).monitor .a).watch = .absent ∧ ((watching (.qualifying 1 0) 0).monitor .a).watch.last.isSome = true ∧
      ((watching (.qualified 0 false) 0).monitor .a).watch.last.isSome = true :=
  ⟨admits rfl rfl rfl, admits rfl rfl rfl, by decide +kernel⟩

/-- The largest parameters, outside TRACKING and in it; a TRACK. -/
theorem test_meets_DisciplineIsConfiguredAndTracks :
    base.Admits 0x21 (leBytes 2 1000 ++ leBytes 1 15 ++ leBytes 1 64 ++ leBytes 4 500000 ++ boolCode true :: leBytes 2 65535) ∧
      (timed .tracking none).Admits 0x21 (leBytes 2 1 ++ leBytes 1 2 ++ leBytes 1 1 ++ leBytes 4 1 ++ boolCode false :: leBytes 2 0) ∧
      base.time.state ≠ .tracking ∧ base.Admits 0x22 [Policy.code .aThenB] := ⟨admits rfl rfl rfl, admits rfl rfl rfl, by decide, admits rfl rfl rfl⟩

/-- A measurement of N intervals on REF A that has completed some of them since its first pulse at 0. -/
def measuring (n intervals : Nat) : State :=
  { watching (.qualified 0 false) 0 with discipline := { base.discipline with
      measurement := some { ref := .a, n := n, intervals := intervals, first := some 0, span := 0 } } }

/-- N at 0, 1, 2, 64 and 65; the last interval and one before it; a first pulse still to come. -/
theorem test_meets_MeasurementRuns :
    (watching (.qualified 0 false) 0).Admits 0x23 [refCode (some .a), 2] ∧ (watching (.qualified 0 false) 0).isQualified .a = true ∧
      (measuring 2 1).Admits 0x23 [refCode (some .a), 64] ∧ (measuring 2 1).discipline.measurement ≠ none ∧ base.isQualified .a = false ∧
      base.Admits 0x23 [refCode (some .a), 65] ∧ base.Admits 0x23 [refCode (some .a), 1] ∧ base.Admits 0x23 [refCode (some .a), 0] ∧
      1 + 1 = 2 ∧ 62 + 1 < 64 ∧ (2 ≤ (2 : Byte).toNat ∧ (64 : Byte).toNat ≤ 64 ∧ 64 < (65 : Byte).toNat) :=
  ⟨admits rfl rfl rfl, by decide +kernel, admits rfl rfl rfl, by decide +kernel, by decide +kernel, admits rfl rfl rfl, admits rfl rfl rfl,
    admits rfl rfl rfl, by decide +kernel⟩

/-! Record queue. -/

/-- base with this record queue. -/
def withQueue (q : RecordQueue) : State := { base with queue := q }

/-- An entry that is a marker. -/
def markerEntry : Entry := .marker { lost := 0xFFFFFFFF, first := base.reading, last := base.reading, kinds := 1 }

/-- 4,094 and 4,095 records; a marker and a record at the tail; the append that reaches the threshold. -/
theorem test_meets_RecordsAreAppendedOrLost :
    (recordsQueued 4094).entries.length ≤ 4094 ∧ 4095 ≤ (recordsQueued 4095).entries.length ∧
      4095 ≤ ((recordsQueued 4095).entries ++ [markerEntry]).length ∧ (recordsQueued 4095).entries.getLast?.isSome = true ∧
      ({ recordsQueued 3071 with armed := true }.armed && (recordsQueued 3071).entries.length + 1 == (recordsQueued 3071).threshold) = true := by
  decide +kernel

/-- The least and greatest values, and one beyond; armed at and below the new threshold; disarmed. -/
theorem test_meets_QueueIsConfigured :
    base.Admits 0x28 (leBytes 2 256 ++ leBytes 2 0) ∧ base.Admits 0x28 (leBytes 2 4095 ++ leBytes 2 3600) ∧
      base.Admits 0x28 (leBytes 2 255 ++ leBytes 2 3601) ∧ base.queue.armed = true ∧ base.queue.entries.length < 256 ∧
      256 ≤ (recordsQueued 256).entries.length ∧ (recordsQueued 256).armed = false :=
  ⟨admits rfl rfl rfl, admits rfl rfl rfl, admits rfl rfl rfl, by decide +kernel⟩

/-- base with its request engine DELIVERING. -/
def delivering (f : Fetch) (out : Option OutFrame) : State :=
  { withQueue (recordsQueued 2) with link := { base.link with engine := .delivering f, owed := 1 + f.halts.length, outFrame := out } }

/-- A fetch of n records with some sent. -/
def fetchOf (n : Nat) (sent : BitVec 32) (halts : List Byte) : Fetch := { tag := 1, n := n, sent := sent, halts := halts }

/-- A frame in progress. -/
def sending (k : OutKind) : OutFrame := { kind := k, bytes := [] }

/-- An empty and a filled queue; an unbounded and a bounded FETCH; a HALT in IDLE, and with and without a RECORD frame in progress. -/
theorem test_meets_FetchesBeginAndAreHalted :
    base.Admits 0x29 (leBytes 2 1) ∧ base.queue.entries = [] ∧ (withQueue (recordsQueued 1)).Admits 0x29 (leBytes 2 65535) ∧
      (withQueue (recordsQueued 1)).queue.entries ≠ [] ∧ base.link.occupancy < 4 ∧ base.link.engine = .idle ∧
      (delivering (fetchOf 0 0 []) (some (sending .record))).link.occupancy < 4 ∧ (sending .record).kind = .record ∧
      (delivering (fetchOf 0 0 []) none).link.outFrame = none ∧ (delivering (fetchOf 0 0 []) none).link.owed = 1 := by
  refine ⟨admits rfl rfl rfl, ?_, admits rfl rfl rfl, ?_⟩ <;> decide +kernel

/-- A RECORD frame of a fetch that goes on, that reaches N, and that is halting. -/
theorem test_meets_RecordFrameRemovesTheHead :
    (delivering (fetchOf 0 0 []) (some (sending .record))).resetHold.held = false ∧
      (delivering (fetchOf 0 0 []) (some (sending .record))).link.engine = .delivering (fetchOf 0 0 []) ∧
      (delivering (fetchOf 0 0 []) (some (sending .record))).queue.entries.length = 2 ∧
      (delivering (fetchOf 0 0 [7]) (some (sending .record))).link.owed = 1 + (fetchOf 0 0 [7]).halts.length ∧
      ((fetchOf 2 1 []).sent + 1).toNat = (fetchOf 2 1 []).n ∧ ((fetchOf 3 1 []).sent + 1).toNat ≠ (fetchOf 3 1 []).n ∧
      base.link.outFrame = none := by decide +kernel

/-! Link. -/

/-- base with the link interface changed. -/
def withLink (f : LinkInterface → LinkInterface) : State := { base with link := f base.link }

/-- A result waiting to be sent. -/
def waitingResult (kind : Byte) : Result := { tag := 1, kind := kind, code := .ok, fields := [] }

/-- Every priority: the owed START, a result, the last source alone and after one that is disabled, a record of a running fetch. -/
theorem test_meets_OutboundChoiceIsByPriority :
    base.link.up = true ∧ base.link.outFrame = none ∧ base.link.restartDue = false ∧
      (withLink fun l => { l with startOwed := some .powerOn }).link.startOwed = some .powerOn ∧
      (withLink fun l => { l with queued := [waitingResult 1] }).link.queued = [waitingResult 1] ∧
      ((base.raise .linkError .empty).notices.get .linkError).pending = true ∧ ((base.raise .linkError .empty).notices.get .linkError).enabled = true ∧
      (∀ j ∈ NoticeId.all, (NoticeId.code j).toNat < (NoticeId.code .linkError).toNat → ((base.raise .linkError .empty).notices.get j).pending = false) ∧
      (∀ j ∈ NoticeId.all, ((delivering (fetchOf 0 0 []) none).notices.get j).pending = false) ∧ (fetchOf 0 0 []).halts = [] ∧
      (delivering (fetchOf 0 0 []) none).queue.entries ≠ [] ∧ base.queue.entries = [] := by decide +kernel

theorem test_meets_OutboundFramesComplete :
    let s : State := withLink fun l => { l with outFrame := some (sending .result), queued := [waitingResult 0x32] }
    s.resetHold.held = false ∧ s.link.outFrame = some (sending .result) ∧ s.link.queued = [waitingResult 0x32] ∧ (sending .start).kind = .start ∧
      (sending (.notice .line 1 (.lines 1))).kind = .notice .line 1 (.lines 1) ∧ base.link.outFrame = none := by decide +kernel

/-- An ENABLE LINE of L0, as the engine holds it in EXECUTING. -/
def enableL0 (lost : Bool) : Request := { kind := 0x01, tag := 7, payload := [0], lost := lost }

/-- base with an ENABLE LINE of L0 in EXECUTING. -/
def executing (lost : Bool) : State := withLink fun l => { l with engine := .executing (enableL0 lost), owed := if lost then 0 else 1 }

theorem enableL0_owned (lost : Bool) : (enableL0 lost).Owned := ⟨rfl, by simp [enableL0, fetchKind], by simp [enableL0, haltKind]⟩

/-- An ENABLE LINE from the lane waits in EXECUTING, another request is then BUSY and a HALT STATE, and with the queue empty it is carried out (R181). -/
theorem test_request_waits_in_executing :
    let s := base.takeBytes (wireFrame 0x01 7 [0])
    let t := ((s.takeStatus 8 []).takeHalt 9 []).idleStep
    s.link = (executing false).link ∧ (s.line 0).state = .disabled ∧ (t.line 0).state ≠ .disabled ∧ t.link.engine = .idle ∧ t.link.owed = 0 ∧
      t.link.queued.map (fun r => (r.tag, r.code)) = [(8, .busy), (9, .state), (7, .ok)] := by decide +kernel

/-- The link goes DOWN and UP meanwhile: a request is still BUSY, the one under way has its effect, and its result is lost (R185). -/
theorem test_result_is_lost_with_the_link :
    let s := ((executing false).dropLink.setUp true).takeStatus 8 []
    s.link.engine = .executing (enableL0 true) ∧ (s.idleStep.line 0).state ≠ .disabled ∧ s.idleStep.link.engine = .idle ∧
      s.idleStep.link.queued.map (fun r => (r.tag, r.code)) = [(8, .busy)] ∧ s.idleStep.link.up = true := by decide +kernel

theorem test_meets_LinkGoesDownAndComesUp :
    base.resetHold.held = false ∧ base.link.up = true ∧ (withLink fun l => { l with up := false }).link.up = false ∧
      (withLink fun l => { l with outFrame := some (sending (.notice .line 1 (.lines 1))) }).link.outFrame =
        some { kind := .notice .line 1 (.lines 1), bytes := [] } ∧
      (delivering (fetchOf 0 0 []) none).link.engine = .delivering (fetchOf 0 0 []) ∧
      (executing false).link.engine = .executing (enableL0 false) := by decide +kernel

/-- Occupancy 3 and 4; kinds with and without a length; a right and a wrong length; a running fetch; a request in EXECUTING. -/
theorem test_meets_RequestsAreTurnedAway :
    base.resetHold.held = false ∧ base.link.up = true ∧ base.link.framer ≠ .ignoring ∧ State.reset.link.framer = .ignoring ∧
      (withLink fun l => { l with queued := List.replicate 3 (waitingResult 1) }).link.occupancy < 4 ∧
      4 ≤ (withLink fun l => { l with queued := List.replicate 4 (waitingResult 1) }).link.occupancy ∧ requestLength 0x00 = none ∧
      requestLength 0x33 = none ∧ requestLength 0x01 = some 1 ∧ ([] : List Byte).length ≠ 1 ∧
      (delivering (fetchOf 0 0 []) none).link.engine = .delivering (fetchOf 0 0 []) ∧ (0x31 : Byte) ≠ 0x2A ∧
      requestLength 0x31 = some ([] : List Byte).length ∧ (executing false).link.engine = .executing (enableL0 false) ∧
      (executing false).link.occupancy < 4 ∧ requestLength 0x2A = some ([] : List Byte).length := by decide +kernel

theorem test_meets_NoticesAreEnabledAndRestartAsked : base.Admits 0x30 [0xFF] ∧ base.Admits 0x32 [] := ⟨admits rfl rfl rfl, admits rfl rfl rfl⟩

/-- A CRC that does not match; the longest payload; a length of 1,025, and 1,024, which is not above the limit. -/
theorem test_meets_DamagedFrameIsALinkError :
    base.link.framer = .hunting ∧ base.link.up = true ∧ [(0 : Byte), 0] ≠ leBytes 2 (crc16 (frameBody 0x31 0 [])).toNat ∧
      (List.replicate 1024 (0 : Byte)).length ≤ 1024 ∧ 1024 < (1 : Byte).toNat + 256 * (4 : Byte).toNat ∧
      ¬ 1024 < (0 : Byte).toNat + 256 * (4 : Byte).toNat := by decide +kernel

/-- A request that finds room, a HALT, and the longest payload; a request in EXECUTING, its result owed and lost, with no command waiting. -/
theorem test_meets_WireFrameIsItsCommand :
    (base.resetHold.held = false ∧ base.link.up = true ∧ base.link.framer = .hunting ∧ (List.replicate 1024 (0 : Byte)).length ≤ 1024 ∧
      base.link.engine = .idle ∧ base.link.occupancy < 4 ∧ requestLength 0x01 = some [(0 : Byte)].length ∧ (0x01 : Byte) ≠ 0x29 ∧ (0x01 : Byte) ≠ 0x2A) ∧
      ((executing false).pending = [] ∧ (executing false).resetHold.held = false ∧ (executing false).link.engine = .executing (enableL0 false) ∧
        (executing false).link.up = true ∧ (executing false).link.owed = 1 ∧ (executing false).link.queued.length < 4 ∧
        (executing false).link.framer = .hunting) ∧
      ((executing true).pending = [] ∧ (executing true).resetHold.held = false ∧ (executing true).link.engine = .executing (enableL0 true) ∧
        (executing true).link.framer = .hunting ∧ (executing true).link.occupancy < 4) ∧
      ∀ lost, (enableL0 lost).Owned :=
  ⟨by decide +kernel, by decide +kernel, by decide +kernel, enableL0_owned⟩

theorem test_meets_FrameRoundTrips :
    (Instr.status 7 []).WellFormed = true ∧ (Instr.status 7 []).toFrame = some (0x31, 7, []) ∧
      (Instr.unknownKind 0xFF 7 [1]).WellFormed = true ∧ (Instr.unknownKind 0xFF 7 [1]).toFrame = some (0xFF, 7, [1]) := by decide +kernel

/-! Invariants: states that are not reset states, and a step from each. -/

theorem test_meets_StepKeepsQueueSound :
    (withQueue { RecordQueue.reset with threshold := 256, period := 1, statsDeadline := some 0 }).queue.Sound ∧ ∃ t, step base = .next t :=
  ⟨⟨by decide, fun h => absurd h (by decide), by decide, by decide, by decide, by decide, by decide, by decide⟩, _, rfl⟩

theorem test_meets_StepKeepsCountersBalance :
    (withFeed { feedAt 8 with hold := [heldA 7], counters := { FeedCounters.reset with copiesA := 1, firstCopies := 1 } } 0).CountersBalance := by
  unfold State.CountersBalance Feed.CountsCopies Feed.CountsRecords; decide +kernel

theorem test_meets_StepKeepsLinesSound : (withLine (port .disabled false) 0).LinesSound := by
  refine ⟨fun i => ?_, fun _ => nofun⟩
  refine ⟨?_, ⟨?_, ?_, ?_, ?_, ?_, ?_, ?_, ?_, ?_⟩, fun _ => ?_⟩ <;> revert i <;>
    first | decide +kernel | (unfold LinePort.Counted; decide +kernel) | (unfold LineConfig.InRange; decide +kernel) | skip
  intro i d hd
  have h : ∀ i : LineId, ((withLine (port .disabled false) 0).line i).fifo = [] := by decide +kernel
  rw [h i] at hd; simp at hd

theorem test_meets_StepKeepsFeedsSound : (withFeed (feedAt 8) 0).FeedsSound := by
  refine ⟨by decide +kernel, ?_⟩
  intro i
  refine ⟨?_, ?_, ?_, ?_⟩
  · have h : ∀ i : FeedId, (withFeed (feedAt 8) 0).feed i = if i = 0 then feedAt 8 else .reset := by decide +kernel
    rw [h i]; split <;> (unfold Feed.Shaped; simp [feedAt, Feed.reset])
  all_goals revert i; first | decide +kernel | (unfold LegWatch.Timed; decide +kernel)

theorem test_meets_StepKeepsTimeSound : (watching (.qualified 0 false) 0).TimeSound :=
  ⟨⟨by decide, by decide, by decide, by decide, of_none rfl⟩, following_watching 0, of_none rfl, by decide⟩

theorem test_meets_StepKeepsLinkSound : base.LinkSound ∧ (executing true).LinkSound :=
  ⟨⟨by decide, rfl, nofun, nofun, nofun, fun _ => rfl, of_none rfl, fun h => absurd rfl h, nofun, of_nil rfl⟩,
    ⟨by decide, rfl, fun r h => by injection h with h; rw [← h]; exact enableL0_owned true, nofun, nofun, fun _ => rfl, of_none rfl,
      fun h => absurd rfl h, nofun, of_nil rfl⟩⟩

end Sys2Proof.Tests
end

section
/-! SUPPORT. The line ports' operations, port by port: what each keeps of the port's invariant (R10, R15, R16, R20 to R23, R28). -/

namespace Sys2Proof.Machine

/-- A line port that counts every frame once and whose parts agree with its state. -/
def LinePort.Valid (i : LineId) (p : LinePort) : Prop := p.Counted ∧ p.Sound i

/-! ## A frame in progress -/

/-- The weight of a frame in progress among the frames started (R28). -/
def frameWeight (f : Option Stamp) : Counter := if f.isSome then 1 else 0

/-- Abandoning counts the frame in progress, if there is one, as aborted (R24). -/
theorem LinePort.abandon_eq (p : LinePort) : p.abandon = { p with
    frame := none
    counters := { p.counters with aborted := p.counters.aborted + frameWeight p.frame } } := by
  obtain ⟨_, _, _, _, _, frame, _, _⟩ := p
  cases frame <;> simp [LinePort.abandon, frameWeight]

/-- Stopping a port, spelled out (R12, R13, R24). -/
theorem LinePort.stopIn_eq (st : LineState) (p : LinePort) : p.stopIn st = { p with
    state := st, quiet := none, badRun := 0, frame := none
    counters := { p.counters with aborted := p.counters.aborted + frameWeight p.frame } } := by
  unfold LinePort.stopIn; rw [LinePort.abandon_eq]

/-- A frame begun in ACTIVE, spelled out (R17, R18, R24). -/
theorem LinePort.beginFrame_eq (reading : Stamp) (p : LinePort) : p.beginFrame reading = { p with
    frame := some (reading.less p.config.deskew)
    counters := { p.counters with
      started := p.counters.started + 1, aborted := p.counters.aborted + frameWeight p.frame } } := by
  unfold LinePort.beginFrame; rw [LinePort.abandon_eq]

/-- The relation of R28 with the frame in progress as a weight. -/
theorem LinePort.counted_iff (p : LinePort) : p.Counted ↔
    p.counters.started = p.counters.accepted + p.counters.badCheck + p.counters.runts + p.counters.giants + p.counters.discards +
      p.counters.aborted + p.counters.overruns + frameWeight p.frame := Iff.rfl

theorem LinePort.Counted.congr {p q : LinePort} (h : p.Counted) (hc : q.counters = p.counters) (hf : q.frame = p.frame) : q.Counted := by
  rw [LinePort.counted_iff] at *
  rw [hc, hf]; exact h

theorem LinePort.Counted.stopIn {p : LinePort} (h : p.Counted) (st : LineState) : (p.stopIn st).Counted := by
  rw [LinePort.stopIn_eq, LinePort.counted_iff]
  rw [LinePort.counted_iff] at h
  simp only [h]
  show _ = _ + frameWeight none
  simp only [show frameWeight none = 0 from rfl]
  ring

theorem LinePort.Counted.beginFrame {p : LinePort} (h : p.Counted) (reading : Stamp) : (p.beginFrame reading).Counted := by
  rw [LinePort.beginFrame_eq, LinePort.counted_iff]
  rw [LinePort.counted_iff] at h
  simp only [h, show ∀ r, frameWeight (some r) = 1 from fun _ => rfl]
  ring

theorem LinePort.Counted.discardStart {p : LinePort} (h : p.Counted) (now : LocalCount) : (p.discardStart now).Counted := by
  rw [LinePort.counted_iff] at *
  simp only [LinePort.discardStart, LinePort.restartQuiet, h]
  ring

/-- A frame in progress that ends is counted under one outcome (R19, R28). -/
theorem LinePort.Counted.ended {p q : LinePort} {stamp : Stamp} (h : p.Counted) (hf : p.frame = some stamp) (hq : q.frame = none)
    (hs : q.counters.started = p.counters.started)
    (ho : q.counters.accepted + q.counters.badCheck + q.counters.runts + q.counters.giants + q.counters.discards + q.counters.aborted +
        q.counters.overruns =
      p.counters.accepted + p.counters.badCheck + p.counters.runts + p.counters.giants + p.counters.discards + p.counters.aborted +
        p.counters.overruns + 1) : q.Counted := by
  rw [LinePort.counted_iff] at *
  rw [hs, h, hf, hq, ho]
  exact (add_zero _).symm

/-! ## What every line port holds, and what it holds in each state -/

/-- The parts of a line port that do not depend on its state (R22, R23, R26, R28). -/
structure LinePort.Stored (i : LineId) (p : LinePort) : Prop where
  counted : p.Counted
  fifo : p.fifo.length ≤ Config.fifoDepth
  descriptors : ∀ d ∈ p.fifo, d.Sound i
  config : p.config.InRange

theorem LinePort.Valid.stored {i : LineId} {p : LinePort} (h : p.Valid i) : p.Stored i := ⟨h.1, h.2.fifo, h.2.descriptors, h.2.config⟩

/-- A port with the counters, the frame in progress, the FIFO and the configuration of another. -/
theorem LinePort.Stored.congr {i : LineId} {p q : LinePort} (h : p.Stored i) (hc : q.counters = p.counters) (hf : q.frame = p.frame)
    (hd : q.fifo = p.fifo) (hg : q.config = p.config) : q.Stored i :=
  ⟨h.counted.congr hc hf, hd ▸ h.fifo, hd ▸ h.descriptors, hg ▸ h.config⟩

/-- What a valid port shows in DISABLED and DOWN (R12, R13). -/
theorem LinePort.Valid.stopped {i : LineId} {p : LinePort} (h : p.Valid i) (hs : p.state = .disabled ∨ p.state = .down) :
    p.quiet = none ∧ p.frame = none ∧ p.badRun = 0 := by
  have ha : p.state ≠ .active := by rintro e; simp [e] at hs
  have hi : p.state ≠ .integrating := by rintro e; simp [e] at hs
  exact ⟨by simpa using mt h.2.quiet.mp hi, by simpa using mt h.2.frame ha, h.2.badRun ha⟩

/-- What a valid port shows in INTEGRATING (R15, R16). -/
theorem LinePort.Valid.integrating {i : LineId} {p : LinePort} (h : p.Valid i) (hs : p.state = .integrating) :
    p.signal = true ∧ p.quiet.isSome = true ∧ p.frame = none ∧ p.badRun = 0 := by
  have ha : p.state ≠ .active := by simp [hs]
  exact ⟨h.2.present (.inl hs), h.2.quiet.mpr hs, by simpa using mt h.2.frame ha, h.2.badRun ha⟩

/-- What a valid port shows in ACTIVE (R15, R21). -/
theorem LinePort.Valid.active {i : LineId} {p : LinePort} (h : p.Valid i) (hs : p.state = .active) :
    p.signal = true ∧ p.quiet = none ∧ (p.config.badRunLimit ≠ 0 → p.badRun.toNat < p.config.badRunLimit) := by
  have hi : p.state ≠ .integrating := by simp [hs]
  exact ⟨h.2.present (.inr hs), by simpa using mt h.2.quiet.mp hi, h.2.belowLimit⟩

/-- A frame in progress is one of an ACTIVE line (R16). -/
theorem LinePort.Valid.active_of_frame {i : LineId} {p : LinePort} {stamp : Stamp} (h : p.Valid i) (hf : p.frame = some stamp) :
    p.state = .active := h.2.frame (by simp [hf])

theorem LinePort.Stored.valid_of_stopped {i : LineId} {p : LinePort} (h : p.Stored i)
    (hs : p.state = .disabled ∨ p.state = .down ∧ p.signal = false) (hq : p.quiet = none) (hf : p.frame = none) (hb : p.badRun = 0) :
    p.Valid i := by
  refine ⟨h.counted, ⟨?_, ?_, ?_, ?_, ?_, ?_, h.fifo, h.descriptors, h.config⟩⟩
  · rintro e; rcases hs with hs | hs
    · simp [hs] at e
    · exact hs.2
  · rintro (e | e) <;> simp [e] at hs
  · refine ⟨by simp [hq], fun e => ?_⟩; simp [e] at hs
  · simp [hf]
  · exact fun _ => hb
  · intro hl; rw [hb]; exact Nat.pos_of_ne_zero hl

theorem LinePort.Stored.valid_of_integrating {i : LineId} {p : LinePort} (h : p.Stored i) (hs : p.state = .integrating)
    (hg : p.signal = true) (hq : p.quiet.isSome = true) (hf : p.frame = none) (hb : p.badRun = 0) : p.Valid i := by
  refine ⟨h.counted, ⟨?_, fun _ => hg, by simp [hs, hq], by simp [hf], fun _ => hb, ?_, h.fifo, h.descriptors, h.config⟩⟩
  · simp [hs]
  · intro hl; rw [hb]; exact Nat.pos_of_ne_zero hl

theorem LinePort.Stored.valid_of_active {i : LineId} {p : LinePort} (h : p.Stored i) (hs : p.state = .active)
    (hg : p.signal = true) (hq : p.quiet = none) (hl : p.config.badRunLimit ≠ 0 → p.badRun.toNat < p.config.badRunLimit) : p.Valid i :=
  ⟨h.counted, ⟨by simp [hs], fun _ => hg, by simp [hs, hq], fun _ => hs, fun hn => absurd hs hn, hl, h.fifo, h.descriptors, h.config⟩⟩

/-! ## The changes of a port -/

/-- The entry into INTEGRATING (R15, R20). -/
theorem LinePort.Stored.integrate {i : LineId} {p : LinePort} (h : p.Stored i) (hf : p.frame = none) (hg : p.signal = true)
    (now : LocalCount) : (p.integrate now).Valid i :=
  LinePort.Stored.valid_of_integrating (h.congr rfl rfl rfl rfl) rfl hg rfl hf rfl

/-- The entry into DOWN or DISABLED (R12, R13). -/
theorem LinePort.Stored.stopIn {i : LineId} {p : LinePort} (h : p.Stored i) {st : LineState}
    (hs : st = .disabled ∨ st = .down ∧ p.signal = false) : (p.stopIn st).Valid i := by
  have hc := h.counted.stopIn st
  rw [LinePort.stopIn_eq] at hc ⊢
  exact LinePort.Stored.valid_of_stopped ⟨hc, h.fifo, h.descriptors, h.config⟩ hs rfl rfl rfl

theorem LinePort.Valid.restartQuiet {i : LineId} {p : LinePort} (h : p.Valid i) (hs : p.state = .integrating) (now : LocalCount) :
    (p.restartQuiet now).Valid i := by
  obtain ⟨hg, -, hf, hb⟩ := h.integrating hs
  exact LinePort.Stored.valid_of_integrating (h.stored.congr rfl rfl rfl rfl) hs hg rfl hf hb

theorem LinePort.Valid.discardStart {i : LineId} {p : LinePort} (h : p.Valid i) (hs : p.state = .integrating) (now : LocalCount) :
    (p.discardStart now).Valid i := by
  obtain ⟨hg, -, hf, hb⟩ := h.integrating hs
  exact LinePort.Stored.valid_of_integrating ⟨h.1.discardStart now, h.2.fifo, h.2.descriptors, h.2.config⟩ hs hg rfl hf hb

/-- The expiry of the quiet timer (R15). -/
theorem LinePort.Valid.activate {i : LineId} {p : LinePort} (h : p.Valid i) (hs : p.state = .integrating) :
    LinePort.Valid i { p with state := .active, quiet := none } := by
  obtain ⟨hg, -, -, -⟩ := h.integrating hs
  exact LinePort.Stored.valid_of_active (h.stored.congr rfl rfl rfl rfl) rfl hg rfl h.2.belowLimit

theorem LinePort.Valid.beginFrame {i : LineId} {p : LinePort} (h : p.Valid i) (hs : p.state = .active) (reading : Stamp) :
    (p.beginFrame reading).Valid i := by
  obtain ⟨hg, hq, hl⟩ := h.active hs
  have hc := h.1.beginFrame reading
  rw [LinePort.beginFrame_eq] at hc ⊢
  exact LinePort.Stored.valid_of_active ⟨hc, h.2.fifo, h.2.descriptors, h.2.config⟩ hs hg hq hl

/-- A configuration within the ranges, taken in DISABLED (R26). -/
theorem LinePort.Valid.configure {i : LineId} {p : LinePort} (h : p.Valid i) (hs : p.state = .disabled) {c : LineConfig} (hc : c.InRange) :
    LinePort.Valid i { p with config := c } := by
  obtain ⟨hq, hf, hb⟩ := h.stopped (.inl hs)
  exact LinePort.Stored.valid_of_stopped ⟨h.1.congr rfl rfl, h.2.fifo, h.2.descriptors, hc⟩ (.inl hs) hq hf hb

/-- A descriptor that leaves the head of the FIFO (R31). -/
theorem LinePort.Valid.dropHead {i : LineId} {p : LinePort} {d : Descriptor} {rest : List Descriptor} (h : p.Valid i)
    (hd : p.fifo = d :: rest) : LinePort.Valid i { p with fifo := rest } := by
  obtain ⟨hc, hp⟩ := h
  refine ⟨hc.congr rfl rfl, ⟨hp.down, hp.present, hp.quiet, hp.frame, hp.badRun, hp.belowLimit, ?_, ?_, hp.config⟩⟩
  · have := hp.fifo; rw [hd, List.length_cons] at this; exact Nat.le_of_succ_le this
  · intro x hx; exact hp.descriptors x (hd ▸ List.mem_cons_of_mem d hx)

/-! ## The end of a frame (R19 to R23) -/

/-- The port once its frame in progress has been judged bad check, before the limit is looked at (R20). -/
def LinePort.countBad (p : LinePort) : LinePort :=
  { p with frame := none, badRun := addBadRun p.badRun, counters := { p.counters with badCheck := p.counters.badCheck + 1 } }

/-- The bad-run count has been brought to a limit that is not 0 (R21). -/
def LinePort.AtLimit (p : LinePort) : Prop := p.config.badRunLimit ≠ 0 ∧ p.badRun.toNat = p.config.badRunLimit

theorem toNat_addBadRun {n : BitVec 8} (h : n.toNat < 255) : (addBadRun n).toNat = n.toNat + 1 := by
  unfold addBadRun; rw [if_pos h]; simp; omega

theorem LinePort.Stored.countBad {i : LineId} {p : LinePort} {stamp : Stamp} (h : p.Stored i) (hf : p.frame = some stamp) :
    p.countBad.Stored i :=
  ⟨h.counted.ended hf rfl rfl (by simp only [LinePort.countBad]; ring), h.fifo, h.descriptors, h.config⟩

/-- A bad-check frame short of the limit leaves the line ACTIVE (R20, R21). -/
theorem LinePort.Valid.countBad {i : LineId} {p : LinePort} {stamp : Stamp} (h : p.Valid i) (hf : p.frame = some stamp)
    (hn : ¬ p.countBad.AtLimit) : p.countBad.Valid i := by
  obtain ⟨hg, hq, hl⟩ := h.active (h.active_of_frame hf)
  refine LinePort.Stored.valid_of_active (h.stored.countBad hf) (h.active_of_frame hf) hg hq fun h0 => ?_
  obtain ⟨-, -, -, -, -, -, -, hmax, -⟩ := h.2.config
  have hlt := hl h0
  have hadd : p.countBad.badRun.toNat = p.badRun.toNat + 1 := toNat_addBadRun (by omega)
  have hne : p.countBad.badRun.toNat ≠ p.config.badRunLimit := fun e => hn ⟨h0, e⟩
  show p.countBad.badRun.toNat < p.config.badRunLimit
  omega

/-- A runt, giant, accepted or overrun frame, in the order in which they apply (R19, R23). -/
theorem LinePort.judgeGood_runt {p : LinePort} {bytes : List Byte} (i : LineId) (stamp : Stamp) (h : bytes.length < p.config.minLength) :
    p.judgeGood i stamp bytes = { p with counters := { p.counters with runts := p.counters.runts + 1 } } := if_pos h

theorem LinePort.judgeGood_giant {p : LinePort} {bytes : List Byte} (i : LineId) (stamp : Stamp) (h : p.config.minLength ≤ bytes.length)
    (h' : p.config.maxLength < bytes.length) :
    p.judgeGood i stamp bytes = { p with counters := { p.counters with giants := p.counters.giants + 1 } } := by
  unfold LinePort.judgeGood; rw [if_neg (Nat.not_lt.mpr h), if_pos h']

theorem LinePort.judgeGood_accepted {p : LinePort} {bytes : List Byte} (i : LineId) (stamp : Stamp) (h : p.accepts bytes = true) :
    p.judgeGood i stamp bytes = { p with
      badRun := 0, fifo := p.fifo ++ [descriptorOf i stamp bytes]
      counters := { p.counters with accepted := p.counters.accepted + 1 } } := by
  obtain ⟨h1, h2, h3⟩ := of_decide_eq_true h
  unfold LinePort.judgeGood; rw [if_neg (Nat.not_lt.mpr h1), if_neg (Nat.not_lt.mpr h2), if_pos h3]

theorem LinePort.judgeGood_overrun {p : LinePort} {bytes : List Byte} (i : LineId) (stamp : Stamp) (h : p.config.minLength ≤ bytes.length)
    (h' : bytes.length ≤ p.config.maxLength) (hd : Config.fifoDepth ≤ p.fifo.length) :
    p.judgeGood i stamp bytes = { p with badRun := 0, counters := { p.counters with overruns := p.counters.overruns + 1 } } := by
  unfold LinePort.judgeGood; rw [if_neg (Nat.not_lt.mpr h), if_neg (Nat.not_lt.mpr h'), if_neg (Nat.not_lt.mpr hd)]

theorem LinePort.accepts_iff (bytes : List Byte) (p : LinePort) : p.accepts bytes = true ↔
    p.config.minLength ≤ bytes.length ∧ bytes.length ≤ p.config.maxLength ∧ p.fifo.length < Config.fifoDepth := decide_eq_true_iff

theorem descriptorOf_sound (i : LineId) (stamp : Stamp) {bytes : List Byte} (h : 16 ≤ bytes.length) : (descriptorOf i stamp bytes).Sound i := by
  have hw : (descriptorOf i stamp bytes).window.length = min bytes.length 256 := by simp [descriptorOf, Config.windowBytes, Nat.min_comm]
  refine ⟨rfl, by rw [hw]; omega, hw⟩

/-- The port after a frame in progress is judged good by its check (R19, R23). -/
theorem LinePort.Valid.judgeGood {i : LineId} {p : LinePort} {stamp : Stamp} (h : p.Valid i) (hf : p.frame = some stamp)
    (bytes : List Byte) : (LinePort.judgeGood i stamp bytes { p with frame := none }).Valid i := by
  have hs := h.active_of_frame hf
  obtain ⟨hg, hq, hl⟩ := h.active hs
  rcases Nat.lt_or_ge bytes.length p.config.minLength with h1 | h1
  · rw [LinePort.judgeGood_runt (p := { p with frame := none }) i stamp h1]
    exact LinePort.Stored.valid_of_active ⟨h.1.ended hf rfl rfl (by simp only; ring), h.2.fifo, h.2.descriptors, h.2.config⟩ hs hg hq hl
  rcases Nat.lt_or_ge p.config.maxLength bytes.length with h2 | h2
  · rw [LinePort.judgeGood_giant (p := { p with frame := none }) i stamp h1 h2]
    exact LinePort.Stored.valid_of_active ⟨h.1.ended hf rfl rfl (by simp only; ring), h.2.fifo, h.2.descriptors, h.2.config⟩ hs hg hq hl
  rcases Nat.lt_or_ge p.fifo.length Config.fifoDepth with h3 | h3
  · rw [LinePort.judgeGood_accepted (p := { p with frame := none }) i stamp ((LinePort.accepts_iff _ _).mpr ⟨h1, h2, h3⟩)]
    obtain ⟨-, -, -, hmin, -⟩ := h.2.config
    refine LinePort.Stored.valid_of_active ⟨h.1.ended hf rfl rfl (by simp only; ring), ?_, ?_, h.2.config⟩ hs hg hq Nat.pos_of_ne_zero
    · rw [List.length_append]; exact h3
    · intro d hd
      rcases List.mem_append.mp hd with hd | hd
      · exact h.2.descriptors d hd
      · rw [List.mem_singleton.mp hd]; exact descriptorOf_sound i stamp (hmin.trans h1)
  · rw [LinePort.judgeGood_overrun (p := { p with frame := none }) i stamp h1 h2 h3]
    exact LinePort.Stored.valid_of_active ⟨h.1.ended hf rfl rfl (by simp only; ring), h.2.fifo, h.2.descriptors, h.2.config⟩ hs hg hq
      Nat.pos_of_ne_zero

/-- A judgement by length and FIFO takes nothing off the FIFO. -/
theorem LinePort.judgeGood_fifo_ne_nil {p : LinePort} (i : LineId) (stamp : Stamp) (bytes : List Byte) (h : p.fifo ≠ []) :
    (p.judgeGood i stamp bytes).fifo ≠ [] := by
  unfold LinePort.judgeGood
  split
  · exact h
  · split
    · exact h
    · split
      · simp
      · exact h

theorem LinePort.judgeGood_signal (p : LinePort) (i : LineId) (stamp : Stamp) (bytes : List Byte) :
    (p.judgeGood i stamp bytes).signal = p.signal := by
  unfold LinePort.judgeGood; repeat' split
  all_goals rfl

theorem LineConfig.reset_inRange : LineConfig.reset.InRange := by unfold LineConfig.InRange; decide

theorem LinePort.reset_valid (i : LineId) (signal : Bool) : (LinePort.reset signal).Valid i :=
  LinePort.Stored.valid_of_stopped ⟨by unfold LinePort.Counted; rfl, Nat.zero_le _, nofun, LineConfig.reset_inRange⟩ (.inl rfl) rfl rfl rfl

end Sys2Proof.Machine
end

section
/-! SUPPORT. The line ports' events and requests, case by case (R10 to R26). -/

namespace Sys2Proof.Machine

variable {s : State} {i : LineId}

/-! ## LINE_SIGNAL_CHANGE (R10, R13, R14) -/

theorem State.portSignal_disabled (h : (s.line i).state = .disabled) (v : Bool) :
    s.portSignal i v = s.setLine i { s.line i with signal := v } := by
  unfold State.portSignal; simp only [h]

/-- An appearance in DOWN (R14). -/
theorem State.portSignal_back (h : (s.line i).state = .down) :
    s.portSignal i true = s.changeLine i .signalBack ({ s.line i with signal := true }.integrate s.now) := by
  unfold State.portSignal; simp only [h]

/-- A loss in INTEGRATING or ACTIVE (R13). -/
theorem State.portSignal_lost (h : (s.line i).state = .integrating ∨ (s.line i).state = .active) :
    s.portSignal i false = s.changeLine i .signalLost ({ s.line i with signal := false }.stopIn .down) := by
  unfold State.portSignal; rcases h with h | h <;> simp only [h]

/-- A level that the line's state shows already. -/
theorem State.portSignal_same {v : Bool}
    (h : (s.line i).state = .down ∧ v = false ∨ ((s.line i).state = .integrating ∨ (s.line i).state = .active) ∧ v = true) :
    s.portSignal i v = s.setLine i { s.line i with signal := v } := by
  unfold State.portSignal; rcases h with ⟨h, rfl⟩ | ⟨h | h, rfl⟩ <;> simp only [h]

theorem exec_lineSignalChange_released (h : s.resetHold.held = false) (v : Bool) :
    exec (.lineSignalChange i v) s = .next ((s.setSd i v).portSignal i v) := by
  show execLineSignalChange i v s = _
  unfold execLineSignalChange; rw [h]; rfl

theorem exec_lineSignalChange_held (h : s.resetHold.held = true) (v : Bool) :
    exec (.lineSignalChange i v) s = .next (s.setSd i v) := by
  show execLineSignalChange i v s = _
  unfold execLineSignalChange; rw [h]; rfl

/-! ## START_OF_FRAME (R15 to R18) -/

theorem State.portStart_ignored (h : (s.line i).state = .disabled ∨ (s.line i).state = .down) : s.portStart i = s := by
  unfold State.portStart; rcases h with h | h <;> rw [h]

theorem State.portStart_integrating (h : (s.line i).state = .integrating) :
    s.portStart i = s.setLine i ((s.line i).discardStart s.now) := by
  unfold State.portStart; rw [h]

theorem State.portStart_active (h : (s.line i).state = .active) : s.portStart i = s.setLine i ((s.line i).beginFrame s.reading) := by
  unfold State.portStart; rw [h]

/-! ## END_OF_FRAME (R15, R17, R19 to R23) -/

theorem State.portEnd_ignored (hf : (s.line i).frame = none) (hs : (s.line i).state ≠ .integrating) (good : Bool) (bytes : List Byte) :
    s.portEnd i good bytes = s := by
  unfold State.portEnd; simp only [hf, if_neg hs]

theorem State.portEnd_integrating (hf : (s.line i).frame = none) (hs : (s.line i).state = .integrating) (good : Bool) (bytes : List Byte) :
    s.portEnd i good bytes = s.setLine i ((s.line i).restartQuiet s.now) := by
  unfold State.portEnd; simp only [hf, if_pos hs]

variable {stamp : Stamp} {bytes : List Byte}

/-- A bad-check frame short of the limit (R20). -/
theorem State.portEnd_bad (hf : (s.line i).frame = some stamp) (hl : ¬ (s.line i).countBad.AtLimit) :
    s.portEnd i false bytes = s.setLine i (s.line i).countBad := by
  unfold State.portEnd; simp only [hf]; exact if_neg hl

/-- The bad-check frame that reaches the limit (R21). -/
theorem State.portEnd_badRun (hf : (s.line i).frame = some stamp) (hl : (s.line i).countBad.AtLimit) :
    s.portEnd i false bytes = s.changeLine i .badRun ((s.line i).countBad.integrate s.now) := by
  unfold State.portEnd; simp only [hf]; exact if_pos hl

/-- A frame that is judged good by its check and not accepted (R19, R23). -/
theorem State.portEnd_refused (hf : (s.line i).frame = some stamp) (ha : (s.line i).accepts bytes = false) :
    s.portEnd i true bytes = s.setLine i (LinePort.judgeGood i stamp bytes { s.line i with frame := none }) := by
  unfold State.portEnd; simp only [hf, ha]; rfl

/-- An accepted frame: its line is noted before its descriptor is appended (R22, R31). -/
theorem State.portEnd_accepted (hf : (s.line i).frame = some stamp) (ha : (s.line i).accepts bytes = true) :
    s.portEnd i true bytes = (s.noteAppend i).setLine i (LinePort.judgeGood i stamp bytes { s.line i with frame := none }) := by
  unfold State.portEnd; simp only [hf, ha]; rfl

/-! ## QUIET_TIMER_EXPIRY (R15) -/

theorem State.portQuiet_due (hs : (s.line i).state = .integrating) (hd : due (s.line i).quiet s.now = true) :
    s.portQuiet i = s.changeLine i .integrated { s.line i with state := .active, quiet := none } := if_pos ⟨hs, hd⟩

theorem State.portQuiet_not_due (h : ¬ ((s.line i).state = .integrating ∧ due (s.line i).quiet s.now = true)) : s.portQuiet i = s := if_neg h

/-! ## Requests (R11, R12, R26) -/

variable {p : List Byte}

theorem ownEnableLine_no_line (h : lineNamed p = none) (s : State) : ownEnableLine p s = (s, .bare .range) := by
  unfold ownEnableLine; rw [h]

theorem ownEnableLine_signal (h : lineNamed p = some i) (hs : (s.line i).state = .disabled) (hg : (s.line i).signal = true) :
    ownEnableLine p s = (s.changeLine i .enabled ((s.line i).integrate s.now), .ok []) := by
  unfold ownEnableLine; simp only [h, hs, hg]; rfl

theorem ownEnableLine_no_signal (h : lineNamed p = some i) (hs : (s.line i).state = .disabled) (hg : (s.line i).signal = false) :
    ownEnableLine p s = (s.changeLine i .enabled { s.line i with state := .down, badRun := 0 }, .ok []) := by
  unfold ownEnableLine; simp only [h, hs, hg]; rfl

theorem ownEnableLine_enabled (h : lineNamed p = some i) (hs : (s.line i).state ≠ .disabled) : ownEnableLine p s = (s, .ok []) := by
  unfold ownEnableLine; simp only [h]; split <;> trivial

theorem ownDisableLine_no_line (h : lineNamed p = none) (s : State) : ownDisableLine p s = (s, .bare .range) := by
  unfold ownDisableLine; rw [h]

theorem ownDisableLine_disabled (h : lineNamed p = some i) (hs : (s.line i).state = .disabled) : ownDisableLine p s = (s, .ok []) := by
  unfold ownDisableLine; simp only [h, hs]

theorem ownDisableLine_enabled (h : lineNamed p = some i) (hs : (s.line i).state ≠ .disabled) :
    ownDisableLine p s = (s.changeLine i .disabled ((s.line i).stopIn .disabled), .ok []) := by
  unfold ownDisableLine; simp only [h]; split <;> trivial

theorem ownConfigureLine_no_line (h : lineNamed p = none) (s : State) : ownConfigureLine p s = (s, .bare .range) := by
  unfold ownConfigureLine; rw [h]

theorem ownConfigureLine_enabled (h : lineNamed p = some i) (hs : (s.line i).state ≠ .disabled) :
    ownConfigureLine p s = (s, .bare .state) := by
  unfold ownConfigureLine; simp only [h, if_neg hs]

theorem ownConfigureLine_taken {c : LineConfig} (h : lineNamed p = some i) (hs : (s.line i).state = .disabled)
    (hc : LineConfig.parse p = some c) : ownConfigureLine p s = (s.setLine i { s.line i with config := c }, .ok []) := by
  unfold ownConfigureLine; simp only [h, hs, if_true, hc]

theorem ownConfigureLine_out_of_range (h : lineNamed p = some i) (hs : (s.line i).state = .disabled) (hc : LineConfig.parse p = none) :
    ownConfigureLine p s = (s, .bare .range) := by
  unfold ownConfigureLine; simp only [h, hs, if_true, hc]

/-- What CONFIGURE LINE takes is within the ranges (R26). -/
theorem LineConfig.parse_inRange {c : LineConfig} (h : LineConfig.parse p = some c) : c.InRange := by
  simp only [LineConfig.parse, Option.ite_none_right_eq_some, Option.some.injEq, Bool.and_eq_true, within, decide_eq_true_iff] at h
  obtain ⟨⟨⟨⟨⟨⟨⟨-, hd⟩, hi⟩, hm⟩, hx⟩, -, hb⟩, hmx⟩, rfl⟩ := h
  exact ⟨hd, hi.1, hi.2, hm.1, hm.2, hx.1, hx.2, hb, hmx⟩

end Sys2Proof.Machine
end

section
/-! SUPPORT. The line ports' invariant (R10, R15, R16, R20 to R23, R26, R28, R31): kept by every event, every request and so by every step. -/

namespace Sys2Proof.Machine

/-! ## What the invariant depends on -/

/-- Two states that agree on what the line ports' invariant speaks of. -/
structure SamePorts (s t : State) : Prop where
  sd : t.pins.sd = s.pins.sd
  resetHold : t.resetHold = s.resetHold
  lines : t.lines = s.lines
  classifier : t.classifier = s.classifier

theorem SamePorts.refl (s : State) : SamePorts s s := ⟨rfl, rfl, rfl, rfl⟩

theorem SamePorts.trans {s t u : State} (a : SamePorts s t) (b : SamePorts t u) : SamePorts s u :=
  ⟨b.sd.trans a.sd, b.resetHold.trans a.resetHold, b.lines.trans a.lines, b.classifier.trans a.classifier⟩

theorem SamePorts.linkBlind (s : State) : LinkBlind (SamePorts s) :=
  ⟨fun _ _ h => ⟨h.sd, h.resetHold, h.lines, h.classifier⟩, fun _ _ h => ⟨h.sd, h.resetHold, h.lines, h.classifier⟩⟩

theorem Acts.samePorts {i : FeedId} {s t : State} (a : Acts i s t) : SamePorts s t :=
  ⟨by rw [a.same.pins], a.same.resetHold, a.same.lines, a.same.classifier⟩

theorem TimeActs.samePorts {s t : State} (a : TimeActs s t) : SamePorts s t :=
  ⟨by rw [a.same.pins], a.same.resetHold, a.same.lines, a.same.classifier⟩

theorem State.LinesSound.congr {s t : State} (h : s.LinesSound) (e : SamePorts s t) : t.LinesSound := by
  have hl : ∀ i, t.line i = s.line i := State.line_congr e.lines
  unfold State.LinesSound
  simp only [hl, e.sd, e.resetHold, e.classifier]
  exact h

theorem State.LinesSound.port {s : State} (h : s.LinesSound) (i : LineId) : (s.line i).Valid i := ⟨(h.1 i).1, (h.1 i).2.1⟩

theorem State.LinesSound.signal {s : State} (h : s.LinesSound) (hr : s.resetHold.held = false) (i : LineId) :
    (s.line i).signal = s.pins.sd[i] := (h.1 i).2.2 hr

/-! ## Events of a line port -/

/-- A line port's event keeps the invariant when it leaves its port valid with the level its input shows, takes nothing off the FIFO, and notes the
line only when the arbiter waits and the FIFO gains its first descriptor. -/
theorem State.LinesSound.of_acts {s t : State} {i : LineId} (h : s.LinesSound) (a : LineActs i s t) (hp : (t.line i).Valid i)
    (hg : (t.line i).signal = (s.line i).signal) (hq : (s.line i).fifo ≠ [] → (t.line i).fifo ≠ [])
    (hn : t.classifier.firstIn = s.classifier.firstIn ∨
      t.classifier.firstIn = some i ∧ s.classifier.held = none ∧ (t.line i).fifo ≠ []) : t.LinesSound := by
  have hheld : t.classifier.held = s.classifier.held := by rw [a.classifier]
  refine ⟨fun j => ?_, fun j hj => ?_⟩
  · rw [a.pins, a.resetHold]
    by_cases e : i = j
    · subst e; exact ⟨hp.1, hp.2, fun hr => hg.trans (h.signal hr i)⟩
    · rw [a.others j e]; exact h.1 j
  · rw [hheld]
    have kept : s.classifier.firstIn = some j → s.classifier.held = none ∧ (t.line j).fifo ≠ [] := by
      intro hs
      obtain ⟨hfree, hne⟩ := h.2 j hs
      by_cases e : i = j
      · subst e; exact ⟨hfree, hq hne⟩
      · rw [a.others j e]; exact ⟨hfree, hne⟩
    rcases hn with hn | ⟨hn, hfree, hne⟩
    · exact kept (hn ▸ hj)
    · rw [hn] at hj; injection hj with hj; subst hj; exact ⟨hfree, hne⟩

theorem State.LinesSound.setLine {s : State} {i : LineId} {p : LinePort} (h : s.LinesSound) (hp : p.Valid i)
    (hg : p.signal = (s.line i).signal) (hq : (s.line i).fifo ≠ [] → p.fifo ≠ []) : (s.setLine i p).LinesSound := by
  apply h.of_acts (.setLine i p s) <;> simp only [State.line_setLine]
  · exact hp
  · exact hg
  · exact hq
  · exact .inl rfl

theorem State.LinesSound.changeLine {s : State} {i : LineId} {p : LinePort} (h : s.LinesSound) (c : LineCause) (hp : p.Valid i)
    (hg : p.signal = (s.line i).signal) (hq : p.fifo = (s.line i).fifo) : (s.changeLine i c p).LinesSound :=
  (h.setLine hp hg (by rw [hq]; exact id)).congr ⟨rfl, rfl, rfl, rfl⟩

theorem LinePort.stopIn_signal (st : LineState) (p : LinePort) : (p.stopIn st).signal = p.signal := by rw [LinePort.stopIn_eq]

theorem LinePort.stopIn_fifo (st : LineState) (p : LinePort) : (p.stopIn st).fifo = p.fifo := by rw [LinePort.stopIn_eq]

theorem State.LinesSound.portStart {s : State} (h : s.LinesSound) (i : LineId) : (s.portStart i).LinesSound := by
  cases hs : (s.line i).state with
  | disabled => rw [State.portStart_ignored (.inl hs)]; exact h
  | down => rw [State.portStart_ignored (.inr hs)]; exact h
  | integrating =>
    rw [State.portStart_integrating hs]
    exact h.setLine ((h.port i).discardStart hs _) rfl id
  | active =>
    rw [State.portStart_active hs]
    have hv := (h.port i).beginFrame hs s.reading
    rw [LinePort.beginFrame_eq] at hv ⊢
    exact h.setLine hv rfl id

/-- An accepted frame's line is noted when the arbiter waits, and then its FIFO holds the frame's descriptor (R31). -/
theorem State.LinesSound.accept {s : State} {i : LineId} {stamp : Stamp} {bytes : List Byte} (h : s.LinesSound)
    (hf : (s.line i).frame = some stamp) (ha : (s.line i).accepts bytes = true) :
    ((s.noteAppend i).setLine i (LinePort.judgeGood i stamp bytes { s.line i with frame := none })).LinesSound := by
  have hne : (LinePort.judgeGood i stamp bytes { s.line i with frame := none }).fifo ≠ [] := by
    rw [LinePort.judgeGood_accepted (p := { s.line i with frame := none }) i stamp ha]; simp
  apply h.of_acts (.noteAppend i _ s) <;> simp only [State.line_setLine]
  · exact (h.port i).judgeGood hf bytes
  · exact LinePort.judgeGood_signal _ i stamp bytes
  · exact fun _ => hne
  · rw [State.setLine_classifier, State.noteAppend_firstIn]
    by_cases hw : s.arbiterWaits = true
    · rw [if_pos hw]; exact .inr ⟨rfl, ((State.arbiterWaits_iff s).mp hw).1, hne⟩
    · rw [if_neg hw]; exact .inl rfl

theorem State.LinesSound.portEnd {s : State} (h : s.LinesSound) (i : LineId) (good : Bool) (bytes : List Byte) :
    (s.portEnd i good bytes).LinesSound := by
  cases hf : (s.line i).frame with
  | none =>
    by_cases hs : (s.line i).state = .integrating
    · rw [State.portEnd_integrating hf hs]
      exact h.setLine ((h.port i).restartQuiet hs _) rfl id
    · rw [State.portEnd_ignored hf hs]; exact h
  | some stamp =>
    cases good with
    | false =>
      by_cases hl : (s.line i).countBad.AtLimit
      · rw [State.portEnd_badRun hf hl]
        have hg := ((h.port i).active ((h.port i).active_of_frame hf)).1
        exact h.changeLine _ (((h.port i).stored.countBad hf).integrate rfl hg _) rfl rfl
      · rw [State.portEnd_bad hf hl]
        exact h.setLine ((h.port i).countBad hf hl) rfl id
    | true =>
      cases ha : (s.line i).accepts bytes with
      | false =>
        rw [State.portEnd_refused hf ha]
        exact h.setLine ((h.port i).judgeGood hf bytes) (LinePort.judgeGood_signal _ i stamp bytes)
          (LinePort.judgeGood_fifo_ne_nil (p := { s.line i with frame := none }) i stamp bytes)
      | true => rw [State.portEnd_accepted hf ha]; exact h.accept hf ha

theorem State.LinesSound.portQuiet {s : State} (h : s.LinesSound) (i : LineId) : (s.portQuiet i).LinesSound := by
  by_cases hd : (s.line i).state = .integrating ∧ due (s.line i).quiet s.now = true
  · rw [State.portQuiet_due hd.1 hd.2]
    exact h.changeLine _ ((h.port i).activate hd.1) rfl rfl
  · rw [State.portQuiet_not_due hd]; exact h

/-! ## A change of an input (R10, R192) -/

/-- The port after a change of its input: valid, at the new level, its FIFO as it was (R10, R13, R14). -/
theorem LinePort.Valid.portSignal {s : State} {i : LineId} (h : (s.line i).Valid i) (v : Bool) :
    ((s.portSignal i v).line i).Valid i ∧ ((s.portSignal i v).line i).signal = v ∧
      ((s.portSignal i v).line i).fifo = (s.line i).fifo := by
  have hst : LinePort.Stored i { s.line i with signal := v } := h.stored.congr rfl rfl rfl rfl
  cases hs : (s.line i).state with
  | disabled =>
    rw [State.portSignal_disabled hs, State.line_setLine]
    obtain ⟨hq, hf, hb⟩ := h.stopped (.inl hs)
    exact ⟨hst.valid_of_stopped (.inl hs) hq hf hb, rfl, rfl⟩
  | down =>
    obtain ⟨hq, hf, hb⟩ := h.stopped (.inr hs)
    cases v with
    | false =>
      rw [State.portSignal_same (.inl ⟨hs, rfl⟩), State.line_setLine]
      exact ⟨hst.valid_of_stopped (.inr ⟨hs, rfl⟩) hq hf hb, rfl, rfl⟩
    | true =>
      rw [State.portSignal_back hs, State.line_changeLine]
      exact ⟨hst.integrate hf rfl _, rfl, rfl⟩
  | integrating =>
    cases v with
    | false =>
      rw [State.portSignal_lost (.inl hs), State.line_changeLine, LinePort.stopIn_signal, LinePort.stopIn_fifo]
      exact ⟨hst.stopIn (.inr ⟨rfl, rfl⟩), rfl, rfl⟩
    | true =>
      rw [State.portSignal_same (.inr ⟨.inl hs, rfl⟩), State.line_setLine]
      obtain ⟨-, hq, hf, hb⟩ := h.integrating hs
      exact ⟨hst.valid_of_integrating hs rfl hq hf hb, rfl, rfl⟩
  | active =>
    cases v with
    | false =>
      rw [State.portSignal_lost (.inr hs), State.line_changeLine, LinePort.stopIn_signal, LinePort.stopIn_fifo]
      exact ⟨hst.stopIn (.inr ⟨rfl, rfl⟩), rfl, rfl⟩
    | true =>
      rw [State.portSignal_same (.inr ⟨.inr hs, rfl⟩), State.line_setLine]
      obtain ⟨-, hq, hl⟩ := h.active hs
      exact ⟨hst.valid_of_active hs rfl hq hl, rfl, rfl⟩

theorem State.portSignal_classifier (s : State) (i : LineId) (v : Bool) : (s.portSignal i v).classifier = s.classifier := by
  unfold State.portSignal; simp only; split <;> rfl

/-- A change of an input of a released part keeps the invariant: the port follows its input. -/
theorem State.LinesSound.lineSignal {s : State} (h : s.LinesSound) (hr : s.resetHold.held = false) (i : LineId) (v : Bool) :
    ((s.setSd i v).portSignal i v).LinesSound := by
  have hport : ∀ j, (s.setSd i v).line j = s.line j := State.line_congr rfl
  obtain ⟨hp, hg, hq⟩ := LinePort.Valid.portSignal (s := s.setSd i v) (i := i) (by rw [hport]; exact h.port i) v
  have hc := State.portSignal_classifier (s.setSd i v) i v
  have a := LineActs.portSignal i v (s.setSd i v)
  generalize (s.setSd i v).portSignal i v = t at hp hg hq hc a
  have hsd : t.pins.sd = s.pins.sd.set i.val v i.isLt := by rw [a.pins]; rfl
  refine ⟨fun j => ?_, fun j hj => ?_⟩
  · by_cases e : i = j
    · subst e; exact ⟨hp.1, hp.2, fun _ => by rw [hg, hsd]; simp⟩
    · rw [a.others j e, hport, hsd]
      have hv : i.val ≠ j.val := fun he => e (Fin.ext he)
      exact ⟨(h.port j).1, (h.port j).2, fun _ => by rw [h.signal hr j]; simp [Vector.getElem_set_ne, hv]⟩
  · rw [hc] at hj ⊢
    obtain ⟨hfree, hne⟩ := h.2 j hj
    refine ⟨hfree, ?_⟩
    by_cases e : i = j
    · subst e; rw [hq, hport]; exact hne
    · rw [a.others j e, hport]; exact hne

/-- While the part is held in reset its inputs change alone, and the levels are not compared (R192). -/
theorem State.LinesSound.setSd {s : State} (h : s.LinesSound) (hr : s.resetHold.held = true) (i : LineId) (v : Bool) :
    (s.setSd i v).LinesSound :=
  ⟨fun j => ⟨(h.port j).1, (h.port j).2, fun hn => absurd (hr.symm.trans hn) (by decide)⟩, h.2⟩

/-! ## The classifier (R31, R34 to R38) -/

/-- A change of the classifier that notes no line, and does not take a descriptor while a line is noted. -/
theorem State.LinesSound.classifier {s : State} (h : s.LinesSound) {c : Classifier}
    (hc : ∀ i, c.firstIn = some i → s.classifier.firstIn = some i ∧ (s.classifier.held = none → c.held = none)) :
    State.LinesSound { s with classifier := c } :=
  ⟨h.1, fun i hi => ⟨(hc i hi).2 (h.2 i (hc i hi).1).1, (h.2 i (hc i hi).1).2⟩⟩

theorem State.LinesSound.freeClassifier {s : State} (h : s.LinesSound) : s.freeClassifier.LinesSound :=
  h.classifier fun _ hi => ⟨hi, fun _ => rfl⟩

theorem State.LinesSound.countShort {s : State} (h : s.LinesSound) (i : LineId) : (s.countShort i).LinesSound :=
  h.classifier fun _ hi => ⟨hi, id⟩

theorem State.LinesSound.setSelector {s : State} (h : s.LinesSound) (k : Fin 32) (e : Selector) : (s.setSelector k e).LinesSound :=
  h.classifier fun _ hi => ⟨hi, id⟩

theorem Classifier.classify_firstIn (c : Classifier) (d : Descriptor) : (c.classify d).firstIn = c.firstIn := by
  unfold Classifier.classify; split <;> rfl

/-- The grant takes the head of one FIFO and leaves no line noted (R31). -/
theorem State.LinesSound.grant {s : State} (h : s.LinesSound) : s.grant.LinesSound := by
  unfold State.grant
  split
  · rename_i i _ _
    split
    · rename_i d rest hd
      refine ⟨fun j => ?_, fun j hj => ?_⟩
      · show LinePort.Counted ((s.setLine i { s.line i with fifo := rest }).line j) ∧ LinePort.Sound j ((s.setLine i _).line j) ∧
          (s.resetHold.held = false → ((s.setLine i _).line j).signal = s.pins.sd[j])
        by_cases e : i = j
        · subst e
          rw [State.line_setLine]
          exact ⟨((h.port i).dropHead hd).1, ((h.port i).dropHead hd).2, fun hr => h.signal hr i⟩
        · rw [State.line_setLine_ne s _ e]; exact h.1 j
      · rw [Classifier.classify_firstIn] at hj; exact nomatch hj
    · exact h
  · exact h
  · exact h

theorem State.LinesSound.handOver {s : State} (h : s.LinesSound) : s.handOver.LinesSound := by
  have take : ∀ m, (s.freeClassifier.extractAndTake m).LinesSound := by
    intro m
    unfold State.extractAndTake
    split
    · exact h.freeClassifier.countShort _
    · exact h.freeClassifier.congr (Acts.takeArrival _ _ _).samePorts
  unfold State.handOver
  split
  · exact h
  · split
    · exact h.freeClassifier.congr (Acts.count _ _ _).samePorts
    · exact take _
    · exact take _

/-! ## Requests -/

theorem State.LinesSound.ownEnableLine {s : State} (h : s.LinesSound) (p : List Byte) : (ownEnableLine p s).1.LinesSound := by
  cases hn : lineNamed p with
  | none => rw [ownEnableLine_no_line hn]; exact h
  | some i =>
    by_cases hs : (s.line i).state = .disabled
    · obtain ⟨hq, hf, hb⟩ := (h.port i).stopped (.inl hs)
      cases hg : (s.line i).signal with
      | true =>
        rw [ownEnableLine_signal hn hs hg]
        exact h.changeLine _ ((h.port i).stored.integrate hf hg _) rfl rfl
      | false =>
        rw [ownEnableLine_no_signal hn hs hg]
        refine h.changeLine _ ?_ rfl rfl
        exact LinePort.Stored.valid_of_stopped ((h.port i).stored.congr rfl rfl rfl rfl) (.inr ⟨rfl, hg⟩) hq hf rfl
    · rw [ownEnableLine_enabled hn hs]; exact h

theorem State.LinesSound.ownDisableLine {s : State} (h : s.LinesSound) (p : List Byte) : (ownDisableLine p s).1.LinesSound := by
  cases hn : lineNamed p with
  | none => rw [ownDisableLine_no_line hn]; exact h
  | some i =>
    by_cases hs : (s.line i).state = .disabled
    · rw [ownDisableLine_disabled hn hs]; exact h
    · rw [ownDisableLine_enabled hn hs]
      exact h.changeLine _ ((h.port i).stored.stopIn (.inl rfl)) (LinePort.stopIn_signal _ _) (LinePort.stopIn_fifo _ _)

theorem State.LinesSound.ownConfigureLine {s : State} (h : s.LinesSound) (p : List Byte) : (ownConfigureLine p s).1.LinesSound := by
  cases hn : lineNamed p with
  | none => rw [ownConfigureLine_no_line hn]; exact h
  | some i =>
    by_cases hs : (s.line i).state = .disabled
    · cases hc : LineConfig.parse p with
      | none => rw [ownConfigureLine_out_of_range hn hs hc]; exact h
      | some c =>
        rw [ownConfigureLine_taken hn hs hc]
        exact h.setLine ((h.port i).configure hs (LineConfig.parse_inRange hc)) rfl id
    · rw [ownConfigureLine_enabled hn hs]; exact h

/-- Every owning block keeps the line ports sound. -/
theorem State.LinesSound.owners : OwnersKeep State.LinesSound where
  link _ _ h := h.congr ⟨rfl, rfl, rfl, rfl⟩
  notices _ _ h := h.congr ⟨rfl, rfl, rfl, rfl⟩
  enableLine p _ h := h.ownEnableLine p
  disableLine p _ h := h.ownDisableLine p
  configureLine p _ h := h.ownConfigureLine p
  writeSelector p s h := by
    unfold Machine.ownWriteSelector; split
    · exact h.setSelector _ _
    · exact h
  clearSelector p s h := by
    unfold Machine.ownClearSelector; split
    · exact h.setSelector _ _
    · exact h
  configureFeed p s h := by obtain ⟨i, a, -⟩ := Acts.ownConfigureFeed p s; exact h.congr a.samePorts
  openFeed p s h := by obtain ⟨i, a, -⟩ := Acts.ownOpenFeed p s; exact h.congr a.samePorts
  closeFeed p s h := by obtain ⟨i, a, -⟩ := Acts.ownCloseFeed p s; exact h.congr a.samePorts
  setTime p s h := h.congr (TimeActs.ownSetTime p s).samePorts
  adjustTime p s h := h.congr (TimeActs.ownAdjustTime p s).samePorts
  slew p s h := h.congr (TimeActs.ownSlew p s).samePorts
  setRate p s h := h.congr (TimeActs.ownSetRate p s).samePorts
  configureReference p s h := h.congr (TimeActs.ownConfigureReference p s).samePorts
  configureDiscipline p s h := h.congr (TimeActs.ownConfigureDiscipline p s).samePorts
  track p s h := h.congr (TimeActs.ownTrack p s).samePorts
  measure p s h := h.congr (TimeActs.ownMeasure p s).samePorts
  configureQueue p s h := by
    unfold Machine.ownConfigureQueue; simp only; split
    · exact h.congr ⟨rfl, rfl, rfl, rfl⟩
    · exact h

/-! ## The record queue and the link -/

theorem SamePorts.expireStats (s : State) : SamePorts s s.expireStats := by
  have offered : ∀ (u : State) (l : List FeedId) (v : State), SamePorts s v →
      SamePorts s (l.foldl (fun t i => t.offerNow (.stats (u.statsOf i))) v) := by
    intro u l
    induction l with
    | nil => exact fun v h => h
    | cons i l ih => exact fun v h => ih _ (h.trans ⟨rfl, rfl, rfl, rfl⟩)
  unfold State.expireStats
  split
  · split
    · exact offered _ _ _ ⟨rfl, rfl, rfl, rfl⟩
    · exact .refl s
  · exact .refl s

theorem SamePorts.completeRecord (s : State) : SamePorts s s.completeRecord := by
  unfold State.completeRecord
  simp only
  split
  · split
    · exact (SamePorts.linkBlind s).fetchLooks _ ⟨rfl, rfl, rfl, rfl⟩
    · exact ⟨rfl, rfl, rfl, rfl⟩
    · exact ⟨rfl, rfl, rfl, rfl⟩
  · exact .refl s

theorem LinkBlind.choose {P : State → Prop} (b : LinkBlind P) {s : State} (h : P s) : P s.choose := by
  unfold State.choose State.chooseRecord
  repeat' split
  all_goals first | exact h | exact b.link _ _ h | exact b.link _ _ (b.notices _ _ h)

theorem LinkBlind.completeResult {P : State → Prop} (b : LinkBlind P) {s : State} (h : P s) : P s.completeResult := by
  unfold State.completeResult
  repeat' split
  all_goals first | exact h | exact b.link _ _ h

theorem LinkBlind.completeStart {P : State → Prop} (b : LinkBlind P) {s : State} (h : P s) : P s.completeStart := by
  unfold State.completeStart
  repeat' split
  all_goals first | exact h | exact b.link _ _ h

theorem LinkBlind.completeNotice {P : State → Prop} (b : LinkBlind P) {s : State} (h : P s) : P s.completeNotice := by
  unfold State.completeNotice
  repeat' split
  all_goals first | exact h | exact b.link _ _ h

theorem LinkBlind.dropLink {P : State → Prop} (b : LinkBlind P) {s : State} (h : P s) : P s.dropLink := by
  unfold State.dropLink
  split
  · exact b.link _ s.link.drop (b.notices s (s.notices.abandon s.link.outFrame) h)
  · exact h

theorem State.LinesSound.setLinkSd {s : State} (h : s.LinesSound) (v : Bool) : (s.setLinkSd v).LinesSound :=
  h.congr ⟨rfl, rfl, rfl, rfl⟩

/-! ## Resets (R29, R191, R192) -/

theorem linesReset_get (pins : Pins) (i : LineId) : (linesReset pins)[i] = .reset pins.sd[i] := by
  fin_cases i <;> rfl

/-- After a reset every port is at its reset values, with the level its input shows. -/
theorem State.linesSound_of_reset {s : State} (hl : s.lines = linesReset s.pins) (hc : s.classifier.firstIn = none) : s.LinesSound := by
  have hp : ∀ i, s.line i = .reset s.pins.sd[i] := fun i => by unfold State.line; rw [hl, linesReset_get]
  refine ⟨fun i => ?_, fun i hi => ?_⟩
  · rw [hp]; exact ⟨(LinePort.reset_valid i _).1, (LinePort.reset_valid i _).2, fun _ => rfl⟩
  · rw [hc] at hi; exact nomatch hi

theorem State.fresh_linesSound (pins : Pins) (r : ResetHold) (c : ResetCause) (q : List Instr) : (State.fresh pins r c q).LinesSound :=
  State.linesSound_of_reset rfl rfl

/-! ## Commands and steps -/

/-- A command that is a complete frame is that frame taken by its kind (R179, R198). -/
theorem exec_of_toFrame {c : Instr} {k tag : Byte} {p : List Byte} (h : c.toFrame = some (k, tag, p)) (s : State) :
    exec c s = whenReleased (State.takeFrame k tag p) s := by
  cases c <;> cases h <;> rfl

/-- Every command keeps the line ports sound. -/
theorem State.LinesSound.exec {s t : State} (h : s.LinesSound) (c : Instr) (e : exec c s = .next t) : t.LinesSound := by
  have o := State.LinesSound.owners
  have b := o.toLinkBlind
  cases hc : c.toFrame with
  | some f =>
    obtain ⟨k, tag, p⟩ := f
    rw [exec_of_toFrame hc] at e
    exact whenReleased_keeps (o.takeFrame k tag p h) h e
  | none =>
    cases c
    case lineSignalChange i v =>
      cases hr : s.resetHold.held with
      | true => rw [exec_lineSignalChange_held hr] at e; injection e with e; rw [← e]; exact h.setSd hr i v
      | false => rw [exec_lineSignalChange_released hr] at e; injection e with e; rw [← e]; exact h.lineSignal hr i v
    case linkDown =>
      injection e with e; rw [← e]; split
      · exact h.setLinkSd false
      · exact b.dropLink (h.setLinkSd false)
    case linkUp =>
      injection e with e; rw [← e]; split
      · exact h.setLinkSd true
      · exact b.setUp true (h.setLinkSd true)
    case powerOn => injection e with e; rw [← e]; exact State.fresh_linesSound _ _ _ _
    case lineReset => injection e with e; rw [← e]; exact State.fresh_linesSound _ _ _ _
    case supplyDip => injection e with e; rw [← e]; exact State.fresh_linesSound _ _ _ _
    case resetRelease =>
      injection e with e; rw [← e]; split
      · exact State.fresh_linesSound _ _ _ _
      · exact h
    all_goals first | exact absurd hc (Option.some_ne_none _) | refine whenReleased_keeps ?_ h e
    case startOfFrame i => exact h.portStart i
    case endOfFrame i good bytes => exact h.portEnd i good bytes
    case quietTimerExpiry i => exact h.portQuiet i
    case ingressGrant => exact h.grant
    case handOver => exact h.handOver
    case pairingTimerExpiry i => exact h.congr (Acts.expirePairing i s).samePorts
    case gapTimerExpiry i => exact h.congr (Acts.expireGaps i s).samePorts
    case candidateExpiry i => exact h.congr (Acts.expireCandidate i s).samePorts
    case silenceDeadlineExpiry i leg => exact h.congr (Acts.expireSilence i leg s).samePorts
    case statisticsTimerExpiry => exact h.congr (.expireStats s)
    case referencePulse r edge => exact h.congr (TimeActs.takePulse r edge s).samePorts
    case referenceTimeout r => exact h.congr (TimeActs.timeoutMonitor r s).samePorts
    case holdoverTimerExpiry => exact h.congr (TimeActs.expireHoldover s).samePorts
    case slewComplete => exact h.congr (TimeActs.completeSlew s).samePorts
    case inboundFrameDiscard bytes => exact b.takeBytes bytes h
    case outboundChoice =>
      split
      · exact b.choose h
      · exact h
    case resultFrameComplete => exact b.completeResult h
    case recordFrameComplete => exact h.congr (.completeRecord s)
    case startFrameComplete => exact b.completeStart h
    case noticeFrameComplete => exact b.completeNotice h
    case restartExecute =>
      split
      · exact State.linesSound_of_reset rfl rfl
      · exact h

theorem State.LinesSound.idleStep {s : State} (h : s.LinesSound) : s.idleStep.LinesSound := by
  have tick : (s.elapse 1).LinesSound := by
    unfold State.elapse
    split
    · exact h
    · exact h.congr ⟨rfl, rfl, rfl, rfl⟩
  unfold State.idleStep
  split
  · exact h
  · split
    · exact State.LinesSound.owners.toLinkBlind.finish _ _ (State.LinesSound.owners.ownOf _ _) h
    · exact tick
    · exact tick

/-- Settles O56: an empty queue's step is a request carried out or a tick, and every other step is a command, each of which keeps the invariant. -/
theorem stepKeepsLinesSound : Obligations.StepKeepsLinesSound := by
  intro s t h e
  unfold step at e
  split at e
  · injection e with e; rw [← e]; exact h.idleStep
  · rename_i c rest _
    exact State.LinesSound.exec (s := { s with pending := rest }) (h.congr ⟨rfl, rfl, rfl, rfl⟩) c e

end Sys2Proof.Machine
end

section
/-! SUPPORT. The events of a line port as the statements spell them out: O7, O8 and O9. -/

namespace Sys2Proof.Machine

/-! ## Events of a released part -/

theorem exec_startOfFrame_released {s : State} (h : s.resetHold.held = false) (i : LineId) :
    exec (.startOfFrame i) s = .next (s.portStart i) := whenReleased_of _ h

theorem exec_endOfFrame_released {s : State} (h : s.resetHold.held = false) (i : LineId) (good : Bool) (bytes : List Byte) :
    exec (.endOfFrame i good bytes) s = .next (s.portEnd i good bytes) := whenReleased_of _ h

theorem exec_quietTimerExpiry_released {s : State} (h : s.resetHold.held = false) (i : LineId) :
    exec (.quietTimerExpiry i) s = .next (s.portQuiet i) := whenReleased_of _ h

/-! ## O7 -/

/-- Settles O7: one case of the port's event for each line state, and the expiry of a deadline that is reached. -/
theorem lineFollowsItsSignalAndTimer : Obligations.LineFollowsItsSignalAndTimer := by
  refine ⟨fun s i hr => ⟨fun hs v => ?_, fun hs => ?_, fun old hs ho => ?_⟩, fun s i d hr hs hd ht => ?_⟩
  · rw [exec_lineSignalChange_released hr, State.portSignal_disabled (s := s.setSd i v) hs]; rfl
  · rw [exec_lineSignalChange_released hr, State.portSignal_back (s := s.setSd i true) hs, ← hs]; rfl
  · subst hs
    rw [exec_lineSignalChange_released hr, State.portSignal_lost (s := s.setSd i false) ho, LinePort.stopIn_eq]; rfl
  · have hq : due (s.line i).quiet s.now = true := by rw [hd]; exact ht
    rw [exec_quietTimerExpiry_released hr, State.portQuiet_due hs hq, ← hs]; rfl

/-! ## O8 -/

/-- Settles O8: one case of the port's event for each line state. -/
theorem startOfFrame : Obligations.StartOfFrame := by
  intro s i hr
  rw [exec_startOfFrame_released hr]
  refine ⟨fun hs => ?_, fun hs => ?_, fun hs => ?_⟩
  · rw [State.portStart_ignored hs]
  · rw [State.portStart_integrating hs]; rfl
  · rw [State.portStart_active hs, LinePort.beginFrame_eq]; rfl

/-! ## O9 -/

theorem addBadRun_of_lt {n : BitVec 8} (h : n.toNat < 255) : addBadRun n = n + 1 := if_pos h

/-- One more bad-check frame brings the count to the limit (R20, R21). -/
theorem LinePort.atLimit_countBad_iff {p : LinePort} (h : p.badRun.toNat < 255) :
    p.countBad.AtLimit ↔ p.config.badRunLimit ≠ 0 ∧ p.badRun.toNat + 1 = p.config.badRunLimit := by
  have hadd : p.countBad.badRun.toNat = p.badRun.toNat + 1 := toNat_addBadRun h
  unfold LinePort.AtLimit; rw [hadd]; rfl

theorem LinePort.accepts_false_iff (bytes : List Byte) (p : LinePort) : p.accepts bytes = false ↔
    ¬ (p.config.minLength ≤ bytes.length ∧ bytes.length ≤ p.config.maxLength ∧ p.fifo.length < Config.fifoDepth) := decide_eq_false_iff_not

/-- An accepted frame notes its line exactly when the arbiter waits (R22, R31). -/
theorem State.portEnd_accepted_noted {s : State} {i : LineId} {stamp : Stamp} {bytes : List Byte} (hf : (s.line i).frame = some stamp)
    (ha : (s.line i).accepts bytes = true) :
    s.portEnd i true bytes =
      ({ s with classifier := { s.classifier with firstIn := if s.arbiterWaits then some i else s.classifier.firstIn } } : State).setLine i
        { s.line i with
          frame := none, badRun := 0, fifo := (s.line i).fifo ++ [descriptorOf i stamp bytes]
          counters := { (s.line i).counters with accepted := (s.line i).counters.accepted + 1 } } := by
  rw [State.portEnd_accepted hf ha, LinePort.judgeGood_accepted (p := { s.line i with frame := none }) i stamp ha, State.noteAppend_eq,
    State.noteAppend_firstIn]

/-- Settles O9: the branches of an end of frame, in the order in which they apply. -/
theorem endOfFrameJudged : Obligations.EndOfFrameJudged := by
  refine ⟨fun s i bytes hr => ⟨fun hf hs good => ?_, fun hf hs good => ?_, fun stamp hf => ⟨fun hb hl => ?_, fun h1 => ?_, fun h1 h2 => ?_,
    fun h1 h2 h3 => ?_, fun h1 h2 h3 => ?_⟩⟩, fun s i stamp bytes hr hs hf h0 hb hl => ?_⟩
  all_goals rw [exec_endOfFrame_released hr]
  · rw [State.portEnd_ignored hf hs]
  · rw [State.portEnd_integrating hf hs]; rfl
  · have hn : ¬ (s.line i).countBad.AtLimit := by rw [LinePort.atLimit_countBad_iff hb]; tauto
    rw [State.portEnd_bad hf hn, LinePort.countBad, addBadRun_of_lt hb]
  · have ha : (s.line i).accepts bytes = false := by rw [LinePort.accepts_false_iff]; omega
    rw [State.portEnd_refused hf ha, LinePort.judgeGood_runt (p := { s.line i with frame := none }) i stamp h1]
  · have ha : (s.line i).accepts bytes = false := by rw [LinePort.accepts_false_iff]; omega
    rw [State.portEnd_refused hf ha, LinePort.judgeGood_giant (p := { s.line i with frame := none }) i stamp h1 h2]
  · have ha : (s.line i).accepts bytes = true := (LinePort.accepts_iff _ _).mpr ⟨h1, h2, h3⟩
    refine ⟨_, congrArg _ (State.portEnd_accepted_noted hf ha), fun hfree hempty => ?_, fun hbusy => ?_⟩
    · rw [if_pos ((State.arbiterWaits_iff s).mpr ⟨hfree, hempty⟩)]
    · refine if_neg fun hw => ?_
      obtain ⟨hfree, hempty⟩ := (State.arbiterWaits_iff s).mp hw
      rcases hbusy with hb | ⟨j, hj⟩
      · exact hb hfree
      · exact hj (hempty j)
  · have ha : (s.line i).accepts bytes = false := by
      rw [LinePort.accepts_false_iff]; exact fun h => absurd h.2.2 (Nat.not_lt.mpr h3)
    rw [State.portEnd_refused hf ha, LinePort.judgeGood_overrun (p := { s.line i with frame := none }) i stamp h1 h2 h3]
  · rw [State.portEnd_badRun hf ((LinePort.atLimit_countBad_iff hb).mpr ⟨h0, hl⟩), ← hs]; rfl

end Sys2Proof.Machine
end

section
/-! SUPPORT. The requests to a line port, and the queries: O10, O11 and O14. -/

namespace Sys2Proof.Machine

/-! ## Requests of a released part -/

theorem exec_enableLine_released {s : State} (h : s.resetHold.held = false) (tag : Byte) (p : List Byte) :
    exec (.enableLine tag p) s = .next (s.request 0x01 ownEnableLine tag p) := whenReleased_of _ h

theorem exec_disableLine_released {s : State} (h : s.resetHold.held = false) (tag : Byte) (p : List Byte) :
    exec (.disableLine tag p) s = .next (s.request 0x02 ownDisableLine tag p) := whenReleased_of _ h

theorem exec_configureLine_released {s : State} (h : s.resetHold.held = false) (tag : Byte) (p : List Byte) :
    exec (.configureLine tag p) s = .next (s.request 0x03 ownConfigureLine tag p) := whenReleased_of _ h

theorem exec_queryLine_released {s : State} (h : s.resetHold.held = false) (tag : Byte) (p : List Byte) :
    exec (.queryLine tag p) s = .next (s.request 0x04 ownQueryLine tag p) := whenReleased_of _ h

theorem exec_queryFeed_released {s : State} (h : s.resetHold.held = false) (tag : Byte) (p : List Byte) :
    exec (.queryFeed tag p) s = .next (s.request 0x13 ownQueryFeed tag p) := whenReleased_of _ h

theorem exec_readTime_released {s : State} (h : s.resetHold.held = false) (tag : Byte) (p : List Byte) :
    exec (.readTime tag p) s = .next (s.request 0x1C ownReadTime tag p) := whenReleased_of _ h

theorem exec_status_released {s : State} (h : s.resetHold.held = false) (tag : Byte) (p : List Byte) :
    exec (.status tag p) s = .next (s.request 0x31 ownStatus tag p) := whenReleased_of _ h

/-! ## Fields of a payload (R195, R198) -/

theorem byteAt_cons_zero (b : Byte) (p : List Byte) : byteAt (b :: p) 0 = b.toNat := by
  simp [byteAt, fieldAt, leNat]

theorem fieldAt_cons {offset : Nat} (h : 1 ≤ offset) (b : Byte) (p : List Byte) (n : Nat) :
    fieldAt (b :: p) offset n = fieldAt p (offset - 1) n := by
  obtain ⟨o, rfl⟩ := Nat.exists_eq_add_of_le' h
  rfl

/-- A field is found behind the bytes of the fields before it. -/
theorem fieldAt_behind {k offset : Nat} (h : k ≤ offset) (x : Nat) (rest : List Byte) (n : Nat) :
    fieldAt (leBytes k x ++ rest) offset n = fieldAt rest (offset - k) n := by
  unfold fieldAt
  rw [List.drop_append, List.drop_eq_nil_of_le (by simpa using h), length_leBytes, List.nil_append]

/-- A field reads back as it was written (R195). -/
theorem fieldAt_leBytes_append (n v : Nat) (rest : List Byte) : fieldAt (leBytes n v ++ rest) 0 n = v % 256 ^ n := by
  unfold fieldAt
  rw [List.drop_zero, List.take_left' (length_leBytes n v), leNat_leBytes]

theorem fieldAt_leBytes (n v : Nat) : fieldAt (leBytes n v) 0 n = v % 256 ^ n := by
  have h := fieldAt_leBytes_append n v []
  rwa [List.append_nil] at h

theorem lineNamed_cons {b : Byte} {i : LineId} (h : b.toNat = i.val) (p : List Byte) : lineNamed (b :: p) = some i := by
  unfold lineNamed lineOf
  rw [byteAt_cons_zero, dif_pos (by omega)]
  exact congrArg some (Fin.ext h)

theorem lineNamed_cons_none {b : Byte} (h : 8 ≤ b.toNat) (p : List Byte) : lineNamed (b :: p) = none := by
  unfold lineNamed lineOf
  rw [byteAt_cons_zero, dif_neg (by omega)]

theorem feedNamed_cons {b : Byte} {i : FeedId} (h : b.toNat = i.val) (p : List Byte) : feedNamed (b :: p) = some i := by
  unfold feedNamed feedOf
  rw [byteAt_cons_zero, dif_pos (by omega)]
  exact congrArg some (Fin.ext h)

theorem feedNamed_cons_none {b : Byte} (h : 16 ≤ b.toNat) (p : List Byte) : feedNamed (b :: p) = none := by
  unfold feedNamed feedOf
  rw [byteAt_cons_zero, dif_neg (by omega)]

/-- The five fields of a CONFIGURE LINE payload, each modulo its width (R195, R198). -/
theorem LineConfig.fields_bytes (b : Byte) (c : LineConfig) :
    fieldAt (b :: c.bytes) 1 4 = c.deskew % 256 ^ 4 ∧ fieldAt (b :: c.bytes) 5 2 = c.integration % 256 ^ 2 ∧
      fieldAt (b :: c.bytes) 7 2 = c.minLength % 256 ^ 2 ∧ fieldAt (b :: c.bytes) 9 2 = c.maxLength % 256 ^ 2 ∧
      fieldAt (b :: c.bytes) 11 1 = c.badRunLimit % 256 ^ 1 := by
  refine ⟨?_, ?_, ?_, ?_, ?_⟩ <;>
    simp only [LineConfig.bytes, List.append_assoc, fieldAt_cons, fieldAt_behind, fieldAt_leBytes_append, fieldAt_leBytes, Nat.reduceLeDiff,
      Nat.reduceSub]

/-- A configuration within the ranges reads back from a CONFIGURE LINE payload (R26, R198, R199). -/
theorem LineConfig.parse_bytes {c : LineConfig} (h : c.InRange) (b : Byte) : LineConfig.parse (b :: c.bytes) = some c := by
  obtain ⟨hdeskew, hintegration, hmin, hmax, hlimit⟩ := LineConfig.fields_bytes b c
  obtain ⟨hd, hi, hi', hn, hn', hx, hx', hb, hnx⟩ := h
  have hm : maxDeskew = 262143 := rfl
  rw [Nat.mod_eq_of_lt (by omega)] at hdeskew hintegration hmin hmax hlimit
  unfold LineConfig.parse
  simp only [hdeskew, hintegration, hmin, hmax, hlimit]
  refine if_pos ?_
  simp only [within, Bool.and_eq_true, decide_eq_true_iff]
  omega

/-! ## O10 and O11 -/

/-- A request that its owning block answers without an effect. -/
theorem State.request_answered {s : State} {kind tag : Byte} {p : List Byte} {r : Reply} (own : List Byte → State → State × Reply)
    (h : s.Admits kind p) (ho : own p s.arrived = (s.arrived, r)) : s.request kind own tag p = s.replied kind tag r :=
  State.request_replied (u := s) own h ho rfl

/-- A change of line state behind a frame's arrival is that change, with the link as the arrival left it. -/
theorem State.arrived_changeLine (s : State) (i : LineId) (c : LineCause) (p : LinePort) :
    s.arrived.changeLine i c p = { s.changeLine i c p with link := s.arrived.link } := rfl

/-- A request whose owning block changes the state of a line (R25, R182). -/
theorem State.request_changeLine {s : State} {kind tag : Byte} {p : List Byte} {r : Reply} {i : LineId} {c : LineCause} {q : LinePort}
    (own : List Byte → State → State × Reply) (h : s.Admits kind p) (ho : own p s.arrived = (s.arrived.changeLine i c q, r)) :
    s.request kind own tag p = (s.changeLine i c q).replied kind tag r :=
  State.request_replied own h (by rw [ho, State.arrived_changeLine]) rfl

/-- Settles O10: one case of the owning block for each line state, behind the frame's arrival. -/
theorem linesAreEnabledAndDisabled : Obligations.LinesAreEnabledAndDisabled := by
  intro s b tag
  refine ⟨fun i hi => ⟨fun ha => ?_, fun ha => ?_⟩, fun hb => ⟨fun ha => ?_, fun ha => ?_⟩⟩
  · have hn := lineNamed_cons hi []
    simp only [exec_enableLine_released ha.released]
    refine ⟨fun hs hg => ?_, fun hs hg => ?_, fun hs => ?_⟩
    · rw [State.request_changeLine _ ha (ownEnableLine_signal (s := s.arrived) hn hs hg), ← hs]; rfl
    · rw [State.request_changeLine _ ha (ownEnableLine_no_signal (s := s.arrived) hn hs hg), ← hs]; rfl
    · rw [State.request_answered _ ha (ownEnableLine_enabled (s := s.arrived) hn hs)]
  · have hn := lineNamed_cons hi []
    simp only [exec_disableLine_released ha.released]
    refine ⟨fun hs => ?_, fun old ho hs => ?_⟩
    · rw [State.request_answered _ ha (ownDisableLine_disabled (s := s.arrived) hn hs)]
    · subst ho
      rw [State.request_changeLine _ ha (ownDisableLine_enabled (s := s.arrived) hn hs), LinePort.stopIn_eq]; rfl
  · rw [exec_enableLine_released ha.released, State.request_answered _ ha (ownEnableLine_no_line (lineNamed_cons_none hb []) _)]
  · rw [exec_disableLine_released ha.released, State.request_answered _ ha (ownDisableLine_no_line (lineNamed_cons_none hb []) _)]

/-- Settles O11: the checks of CONFIGURE LINE in their order, and the payload read back. -/
theorem lineIsConfigured : Obligations.LineIsConfigured := by
  intro s c b tag hc ha
  rw [exec_configureLine_released ha.released]
  refine ⟨fun i hi hs => ?_, fun i hi hs => ?_, fun hb => ?_⟩
  · have ho := ownConfigureLine_taken (s := s.arrived) (lineNamed_cons hi c.bytes) hs (LineConfig.parse_bytes hc b)
    rw [State.request_replied (u := s.setLine i { s.line i with config := c }) _ ha ho rfl]
  · rw [State.request_answered _ ha (ownConfigureLine_enabled (s := s.arrived) (lineNamed_cons hi c.bytes) hs)]
  · rw [State.request_answered _ ha (ownConfigureLine_no_line (lineNamed_cons_none hb c.bytes) _)]

/-! ## Lengths of the queries' fields (R195, R196, R201) -/

@[simp] theorem length_counterBytes (cs : List Counter) : (counterBytes cs).length = 4 * cs.length := by
  simp [counterBytes, List.length_flatMap, Nat.mul_comm]

@[simp] theorem length_optField (n : Nat) (v : Option Nat) : (optField n v).length = n + 1 := by simp [optField]

@[simp] theorem TimeValue.length_block (t : TimeValue) : t.block.length = 13 := by simp [TimeValue.block]

@[simp] theorem Stamp.length_block (x : Stamp) : x.block.length = 16 := by simp [Stamp.block]

@[simp] theorem LineConfig.length_bytes (c : LineConfig) : c.bytes.length = 11 := by simp [LineConfig.bytes]

@[simp] theorem Profile.length_bytes (c : Profile) : c.bytes.length = 16 := by simp [Profile.bytes]

@[simp] theorem LegWatch.length_bytes (w : LegWatch) : w.bytes.length = 10 := by simp [LegWatch.bytes]

@[simp] theorem GapRange.length_bytes (g : GapRange) : g.bytes.length = 32 := by simp [GapRange.bytes]

/-- A hold list's head and tail fields take the same space when they are absent (R196). -/
@[simp] theorem length_holdFields (hold : List HeldRecord) : (holdFields hold).length = 19 := by
  unfold holdFields; split <;> simp [zeros]

@[simp] theorem length_candidateFields (c : Option HeldRecord) : (candidateFields c).length = 15 := by
  cases c <;> simp [candidateFields, zeros]

@[simp] theorem length_slewFields (slew : Option SlewFlight) : (slewFields slew).length = 13 := by
  cases slew <;> simp [slewFields, zeros]

theorem State.length_lineFields (s : State) (i : LineId) : (s.lineFields i).length = 56 := by
  simp [State.lineFields, LineCounters.toList]

/-- The fields of a feed, and 32 bytes for each range of its gap list (R201). -/
theorem State.length_feedFields (s : State) (i : FeedId) : (s.feedFields i).length = 154 + 32 * (s.feed i).gaps.length := by
  have hg : ((s.feed i).gaps.flatMap GapRange.bytes).length = 32 * (s.feed i).gaps.length := by
    simp [List.length_flatMap, Nat.mul_comm]
  simp only [State.feedFields, List.length_append, hg]
  simp [FeedCounters.toList]

theorem State.length_timeFields (s : State) : s.timeFields.length = 66 := by simp [State.timeFields]

theorem State.length_statusFields (s : State) : s.statusFields.length = 64 := by simp [State.statusFields]

/-! ## O14 -/

theorem ownQueryLine_line {p : List Byte} {i : LineId} (h : lineNamed p = some i) (s : State) :
    ownQueryLine p s = (s, .ok (s.lineFields i)) := by unfold ownQueryLine; rw [h]

theorem ownQueryLine_no_line {p : List Byte} (h : lineNamed p = none) (s : State) : ownQueryLine p s = (s, .bare .range) := by
  unfold ownQueryLine; rw [h]

theorem ownQueryFeed_feed {p : List Byte} {i : FeedId} (h : feedNamed p = some i) (s : State) :
    ownQueryFeed p s = (s, .ok (s.feedFields i)) := by unfold ownQueryFeed; rw [h]

theorem ownQueryFeed_no_feed {p : List Byte} (h : feedNamed p = none) (s : State) : ownQueryFeed p s = (s, .bare .range) := by
  unfold ownQueryFeed; rw [h]

/-- Settles O14: each query answers from the state its frame arrived in, and only STATUS reads the link. -/
theorem queriesOnlyAnswer : Obligations.QueriesOnlyAnswer := by
  intro s b tag
  refine ⟨fun ha => ⟨fun i hi => ⟨?_, s.length_lineFields i⟩, fun hb => ?_⟩,
    fun ha => ⟨fun i hi => ⟨?_, s.length_feedFields i⟩, fun hb => ?_⟩,
    fun ha => ⟨?_, s.length_timeFields⟩, fun ha => ⟨?_, s.arrived.length_statusFields⟩⟩
  · rw [exec_queryLine_released ha.released, State.request_answered _ ha (ownQueryLine_line (lineNamed_cons hi []) _)]; rfl
  · rw [exec_queryLine_released ha.released, State.request_answered _ ha (ownQueryLine_no_line (lineNamed_cons_none hb []) _)]
  · rw [exec_queryFeed_released ha.released, State.request_answered _ ha (ownQueryFeed_feed (feedNamed_cons hi []) _)]; rfl
  · rw [exec_queryFeed_released ha.released, State.request_answered _ ha (ownQueryFeed_no_feed (feedNamed_cons_none hb []) _)]
  · rw [exec_readTime_released ha.released, State.request_answered (r := .ok s.timeFields) _ ha rfl]
  · rw [exec_status_released ha.released, State.request_answered (r := .ok s.arrived.statusFields) _ ha rfl]

end Sys2Proof.Machine
end

section
/-! SUPPORT. The reset values (R8, R29, R46, R61, R92, R136, R158, R176, R194): O4, and the invariants of O54 to O59 at every whole-part reset. -/

namespace Sys2Proof.Machine

theorem State.line_fresh (pins : Pins) (r : ResetHold) (c : ResetCause) (q : List Instr) (i : LineId) :
    (State.fresh pins r c q).line i = .reset pins.sd[i] := linesReset_get pins i

theorem State.feed_fresh (pins : Pins) (r : ResetHold) (c : ResetCause) (q : List Instr) (i : FeedId) :
    (State.fresh pins r c q).feed i = .reset := by simp [State.feed, State.fresh]

theorem NoticeTable.get_reset (id : NoticeId) : NoticeTable.reset.get id = .reset := by cases id <;> rfl

/-- No record is held after a reset, so the pool is free (R92). -/
theorem State.heldCount_fresh (pins : Pins) (r : ResetHold) (c : ResetCause) (q : List Instr) :
    heldCount (State.fresh pins r c q).feeds.toList = 0 := by simp [State.fresh, heldCount, Feed.reset]

/-- Settles O4: the reset values of each block, read through the accessors. -/
theorem resetState : Obligations.ResetState := by
  have hl : ∀ i, State.reset.line i = .reset State.reset.pins.sd[i] := State.line_fresh _ _ _ _
  refine ⟨fun i => ?_, rfl, rfl, rfl, fun k => ?_, fun i => ?_, State.feed_fresh _ _ _ _, ?_, rfl, rfl, rfl, rfl, NoticeTable.get_reset,
    rfl, rfl, rfl, rfl, rfl, rfl, rfl, rfl, rfl⟩
  · rw [hl i]; exact ⟨rfl, rfl, rfl, rfl, rfl, rfl, rfl, rfl⟩
  · exact Vector.getElem_replicate k.isLt
  · exact ⟨Vector.getElem_replicate i.isLt, Vector.getElem_replicate i.isLt⟩
  · unfold State.freeCount State.reset; rw [State.heldCount_fresh]; rfl

/-! ## The invariants after a whole-part reset -/

section
variable (pins : Pins) (r : ResetHold) (c : ResetCause) (q : List Instr)

theorem State.fresh_countersBalance : (State.fresh pins r c q).CountersBalance := fun i => by
  rw [State.feed_fresh]; exact ⟨rfl, rfl⟩

theorem State.fresh_feedsSound : (State.fresh pins r c q).FeedsSound := by
  have timed : LegWatch.none.Timed := by unfold LegWatch.Timed; decide
  refine ⟨by rw [State.heldCount_fresh]; exact Nat.zero_le _, fun i => ?_⟩
  rw [State.feed_fresh]
  exact ⟨⟨rfl, rfl, rfl, rfl, rfl⟩, Nat.zero_le _, timed, timed⟩

theorem TimeBase.reset_sound : TimeBase.reset.Sound := ⟨by decide, by decide, by decide, by decide, nofun⟩

/-- After a reset both monitors are OFF and the policy is NONE, so nothing is followed and nothing measured (R158). -/
theorem State.fresh_timeSound : (State.fresh pins r c q).TimeSound :=
  ⟨TimeBase.reset_sound, ⟨rfl, ⟨nofun, nofun⟩, nofun, ⟨nofun, nofun⟩⟩, nofun, show 1 ≤ DisciplineParams.reset.settle by decide⟩

/-- After a reset a START frame is owed, the framer ignores what comes, and no result is queued (R194). -/
theorem State.fresh_linkSound : (State.fresh pins r c q).LinkSound :=
  ⟨Nat.zero_le _, rfl, nofun, nofun, fun _ => ⟨rfl, rfl, rfl, rfl⟩, fun _ => rfl, nofun, fun _ => ⟨rfl, rfl, rfl⟩, nofun, nofun⟩

end

/-- Settles O60: State.reset is the state after a whole-part reset. -/
theorem invariantsHoldAtReset : Obligations.InvariantsHoldAtReset :=
  ⟨RecordQueue.reset_sound, State.fresh_countersBalance _ _ _ _, State.fresh_linesSound _ _ _ _, State.fresh_feedsSound _ _ _ _,
    State.fresh_timeSound _ _ _ _, State.fresh_linkSound _ _ _ _⟩

end Sys2Proof.Machine
end

section
/-! SUPPORT. Classification and hand-over (R30 to R43): O12, O13, O15 and O16. -/

namespace Sys2Proof.Machine

/-! ## Events of a released part -/

theorem exec_ingressGrant_released {s : State} (h : s.resetHold.held = false) : exec .ingressGrant s = .next s.grant := whenReleased_of _ h

theorem exec_handOver_released {s : State} (h : s.resetHold.held = false) : exec .handOver s = .next s.handOver := whenReleased_of _ h

/-! ## The order of service (R31) -/

/-- How far a line lies behind the one that comes right after the last served. -/
def cyclicDistance (last i : LineId) : Nat := (i - last - 1).val

theorem mem_cyclicOrder (last i : LineId) : i ∈ cyclicOrder last := by
  revert last i; decide

/-- The cyclic order is the order of the cyclic distance. -/
theorem cyclicOrder_sorted (last : LineId) : (cyclicOrder last).Pairwise fun i j => cyclicDistance last i < cyclicDistance last j := by
  unfold cyclicDistance; revert last; decide

/-- In a list sorted by a key, the first element with a property is the one with the least key. -/
theorem find?_eq_some_of_least {α : Type} {p : α → Bool} {key : α → Nat} {a : α} {l : List α} (hl : l.Pairwise fun x y => key x < key y)
    (ha : a ∈ l) (hp : p a = true) (hmin : ∀ b, p b = true → key a ≤ key b) : l.find? p = some a := by
  induction hl with
  | nil => exact absurd ha List.not_mem_nil
  | @cons x t hx _ ih =>
    rcases List.mem_cons.mp ha with rfl | ht
    · exact List.find?_cons_of_pos hp
    · have hn : ¬ p x = true := fun h => absurd (hmin x h) (Nat.not_le.mpr (hx a ht))
      rw [List.find?_cons_of_neg hn, ih ht]

/-- The line that ended the arbiter's wait is granted first (R31, log 26). -/
theorem State.grantLine_of_firstIn {s : State} {i : LineId} (hf : s.classifier.firstIn = some i) (hq : (s.line i).fifo ≠ []) :
    s.grantLine = some i := by
  unfold State.grantLine Classifier.lookOrder
  rw [hf]
  exact List.find?_cons_of_pos (by simpa using hq)

/-- Otherwise the first line in cyclic order whose FIFO is not empty is granted (R31). -/
theorem State.grantLine_of_cyclic {s : State} {i : LineId} (hf : ∀ j, s.classifier.firstIn = some j → (s.line j).fifo = [])
    (hq : (s.line i).fifo ≠ [])
    (hmin : ∀ j, (s.line j).fifo ≠ [] → cyclicDistance s.classifier.lastServed i ≤ cyclicDistance s.classifier.lastServed j) :
    s.grantLine = some i := by
  have hnone : (s.classifier.firstIn.toList.find? fun j => !(s.line j).fifo.isEmpty) = none := by
    simpa using hf
  unfold State.grantLine Classifier.lookOrder
  rw [List.find?_append, hnone, Option.none_or]
  exact find?_eq_some_of_least (cyclicOrder_sorted _) (mem_cyclicOrder _ i) (by simpa using hq) fun j hj => hmin j (by simpa using hj)

theorem State.grantLine_of_empty {s : State} (h : ∀ i, (s.line i).fifo = []) : s.grantLine = none := by
  unfold State.grantLine; simp [h]

/-! ## The match (R33, R34) -/

theorem Selector.accepts_iff (e : Selector) (d : Descriptor) : e.accepts d = true ↔ e.Matches d := by
  simp only [Selector.accepts, Selector.Matches, windowField, Bool.and_eq_true, decide_eq_true_iff, beq_iff_eq, and_assoc]

theorem Classifier.select_of_unmatched {c : Classifier} {d : Descriptor} (h : ∀ k : Fin 32, ¬ c.selectors[k].Matches d) : c.select d = none := by
  refine List.find?_eq_none.mpr fun e he => ?_
  obtain ⟨k, hk, rfl⟩ := Vector.mem_iff_getElem.mp (Vector.mem_toList_iff.mp he)
  exact mt (Selector.accepts_iff _ d).mp (h ⟨k, hk⟩)

/-- The lowest-indexed entry that matches decides (R33). -/
theorem Classifier.select_of_lowest {c : Classifier} {d : Descriptor} {k : Fin 32} (hk : c.selectors[k].Matches d)
    (hlow : ∀ k' < k, ¬ c.selectors[k'].Matches d) : c.select d = some c.selectors[k] := by
  refine List.find?_eq_some_iff_getElem.mpr ⟨(Selector.accepts_iff _ d).mpr hk, k.val, by simp, by simp, fun j hj => ?_⟩
  have hn := mt (Selector.accepts_iff _ d).mp (hlow ⟨j, hj.trans k.isLt⟩ hj)
  simpa using hn

/-! ## The grant (R30, R31) -/

theorem State.grant_busy {s : State} {m : Matched} (h : s.classifier.held = some m) : s.grant = s := by
  unfold State.grant; rw [h]

theorem State.grant_idle {s : State} (h : s.grantLine = none) : s.grant = s := by
  unfold State.grant; rw [h]; split <;> trivial

/-- The granted line's oldest descriptor goes to the classifier, which comes out of its match as c. -/
theorem State.grant_served {s : State} {i : LineId} {d : Descriptor} {rest : List Descriptor} {c : Classifier}
    (hh : s.classifier.held = none) (hg : s.grantLine = some i) (hq : (s.line i).fifo = d :: rest)
    (hc : { s.classifier with lastServed := i, firstIn := none }.classify d = c) :
    s.grant = { s with
      lines := s.lines.set i.val { s.line i with fifo := rest } i.isLt
      classifier := c } := by
  subst hc; unfold State.grant; rw [hh, hg]; simp only [hq]; rfl

theorem Classifier.classify_matched {c : Classifier} {d : Descriptor} {e : Selector} (h : c.select d = some e) :
    c.classify d = { c with held := some { descriptor := d, feed := e.feed, leg := e.leg, mark := e.mark } } := by
  unfold Classifier.classify; rw [h]

theorem Classifier.classify_unclaimed {c : Classifier} {d : Descriptor} (h : c.select d = none) :
    c.classify d = { c with
      held := none, unclaimed := c.unclaimed.set d.line.val (c.unclaimed[d.line] + 1) d.line.isLt } := by
  unfold Classifier.classify; rw [h]

/-- Settles O12: which line is granted, then which entry decides. -/
theorem grantServesNextLine : Obligations.GrantServesNextLine := by
  intro s hr
  rw [exec_ingressGrant_released hr]
  refine ⟨fun h => ?_, fun i d rest hh hq hnext => ?_⟩
  · rcases h with ⟨m, hm⟩ | hempty
    · rw [State.grant_busy hm]
    · rw [State.grant_idle (State.grantLine_of_empty hempty)]
  · have hne : (s.line i).fifo ≠ [] := by simp [hq]
    have hg : s.grantLine = some i := by
      rcases hnext with hf | ⟨hf, hmin⟩
      · exact State.grantLine_of_firstIn hf hne
      · exact State.grantLine_of_cyclic hf hne hmin
    refine ⟨fun hno => ?_, fun k hk hlow => ?_⟩
    · rw [State.grant_served hh hg hq (Classifier.classify_unclaimed (Classifier.select_of_unmatched hno))]
    · rw [State.grant_served hh hg hq (Classifier.classify_matched (Classifier.select_of_lowest hk hlow))]

/-! ## Selector requests (R35, R36) -/

theorem exec_writeSelector_released {s : State} (h : s.resetHold.held = false) (tag : Byte) (p : List Byte) :
    exec (.writeSelector tag p) s = .next (s.request 0x08 ownWriteSelector tag p) := whenReleased_of _ h

theorem exec_clearSelector_released {s : State} (h : s.resetHold.held = false) (tag : Byte) (p : List Byte) :
    exec (.clearSelector tag p) s = .next (s.request 0x09 ownClearSelector tag p) := whenReleased_of _ h

theorem exec_readSelector_released {s : State} (h : s.resetHold.held = false) (tag : Byte) (p : List Byte) :
    exec (.readSelector tag p) s = .next (s.request 0x0A ownReadSelector tag p) := whenReleased_of _ h

theorem selectorOf_byteAt_cons {b : Byte} {k : Fin 32} (h : b.toNat = k.val) (p : List Byte) : selectorOf (byteAt (b :: p) 0) = some k := by
  unfold selectorOf
  rw [byteAt_cons_zero, dif_pos (by omega)]
  exact congrArg some (Fin.ext h)

theorem selectorOf_byteAt_cons_none {b : Byte} (h : 32 ≤ b.toNat) (p : List Byte) : selectorOf (byteAt (b :: p) 0) = none := by
  unfold selectorOf
  rw [byteAt_cons_zero, dif_neg (by omega)]

/-! ### Codes read back (R197) -/

theorem boolOf_boolCode (v : Bool) : boolOf (boolCode v).toNat = some v := by cases v <;> rfl

theorem Leg.ofCode_legCode (l : Leg) : Leg.ofCode (legCode l).toNat = some l := by cases l <;> rfl

theorem feedOf_code (i : FeedId) : feedOf (BitVec.ofNat 8 i.val).toNat = some i := by
  have hi : (BitVec.ofNat 8 i.val).toNat = i.val := by rw [BitVec.toNat_ofNat]; omega
  unfold feedOf
  rw [hi, dif_pos i.isLt]

/-! ### The entry of a WRITE SELECTOR (R35, R198) -/

theorem fieldAt_cons_byte (b : Byte) (p : List Byte) : fieldAt (b :: p) 0 1 = b.toNat := byteAt_cons_zero b p

/-- The one-byte fields in front of mask and value. -/
theorem Selector.head_bytes (b : Byte) (e : Selector) :
    byteAt (b :: e.bytes) 1 = (boolCode e.valid).toNat ∧ byteAt (b :: e.bytes) 2 = e.lineSet.toNat ∧
      byteAt (b :: e.bytes) 3 = e.offset % 256 ∧ byteAt (b :: e.bytes) 4 = e.width % 256 := by
  refine ⟨?_, ?_, ?_, ?_⟩ <;>
    simp only [byteAt, Selector.bytes, List.cons_append, fieldAt_cons, fieldAt_cons_byte, Nat.reduceLeDiff, Nat.reduceSub, BitVec.toNat_ofNat,
      Nat.reducePow]

/-- Mask and value, four bytes each. -/
theorem Selector.mask_value_bytes (b : Byte) (e : Selector) :
    fieldAt (b :: e.bytes) 5 4 = e.mask.toNat ∧ fieldAt (b :: e.bytes) 9 4 = e.value.toNat := by
  have hm : e.mask.toNat % 256 ^ 4 = e.mask.toNat := Nat.mod_eq_of_lt e.mask.isLt
  have hv : e.value.toNat % 256 ^ 4 = e.value.toNat := Nat.mod_eq_of_lt e.value.isLt
  refine ⟨?_, ?_⟩ <;>
    simp only [Selector.bytes, List.cons_append, List.nil_append, List.append_assoc, fieldAt_cons, fieldAt_behind, fieldAt_leBytes_append,
      Nat.reduceLeDiff, Nat.reduceSub, hm, hv]

/-- The one-byte fields behind mask and value. -/
theorem Selector.tail_bytes (b : Byte) (e : Selector) :
    byteAt (b :: e.bytes) 13 = (BitVec.ofNat 8 e.feed.val).toNat ∧ byteAt (b :: e.bytes) 14 = (legCode e.leg).toNat ∧
      byteAt (b :: e.bytes) 15 = (boolCode e.mark).toNat := by
  refine ⟨?_, ?_, ?_⟩ <;>
    simp only [byteAt, Selector.bytes, List.cons_append, List.nil_append, List.append_assoc, fieldAt_cons, fieldAt_behind, fieldAt_cons_byte,
      Nat.reduceLeDiff, Nat.reduceSub]

/-- An entry within R35's ranges reads back from a WRITE SELECTOR payload. -/
theorem Selector.parse_bytes {e : Selector} (h : e.InRange) (b : Byte) : Selector.parse (b :: e.bytes) = some e := by
  obtain ⟨hvalid, hlines, hoffset, hwidth⟩ := e.head_bytes b
  obtain ⟨hmask, hvalue⟩ := e.mask_value_bytes b
  obtain ⟨hfeed, hleg, hmark⟩ := e.tail_bytes b
  obtain ⟨hset, hw, hfit, hm, hv⟩ := h
  rw [Nat.mod_eq_of_lt (by omega)] at hoffset hwidth
  have hset' : e.lineSet.toNat ≠ 0 := fun h0 => hset (BitVec.eq_of_toNat_eq h0)
  unfold Selector.parse
  simp only [hvalid, hlines, hoffset, hwidth, hmask, hvalue, hfeed, hleg, hmark, boolOf_boolCode, feedOf_code, Leg.ofCode_legCode,
    BitVec.ofNat_toNat, BitVec.setWidth_eq]
  refine if_pos ?_
  simp only [Bool.and_eq_true, bne_iff_ne, Bool.or_eq_true, beq_iff_eq, decide_eq_true_iff, or_assoc]
  exact ⟨⟨⟨⟨hset', hw⟩, hfit⟩, hm⟩, hv⟩

/-! ### The owning block's answers -/

theorem ownWriteSelector_taken {p : List Byte} {k : Fin 32} {e : Selector} (hk : selectorOf (byteAt p 0) = some k)
    (he : Selector.parse p = some e) (s : State) : ownWriteSelector p s = (s.setSelector k e, .ok []) := by
  unfold ownWriteSelector; rw [hk, he]

theorem ownWriteSelector_no_entry {p : List Byte} (h : selectorOf (byteAt p 0) = none) (s : State) :
    ownWriteSelector p s = (s, .bare .range) := by
  unfold ownWriteSelector; rw [h]

theorem ownClearSelector_cleared {p : List Byte} {k : Fin 32} (h : selectorOf (byteAt p 0) = some k) (s : State) :
    ownClearSelector p s = (s.setSelector k .reset, .ok []) := by
  unfold ownClearSelector; rw [h]

theorem ownClearSelector_no_entry {p : List Byte} (h : selectorOf (byteAt p 0) = none) (s : State) :
    ownClearSelector p s = (s, .bare .range) := by
  unfold ownClearSelector; rw [h]

theorem ownReadSelector_read {p : List Byte} {k : Fin 32} (h : selectorOf (byteAt p 0) = some k) (s : State) :
    ownReadSelector p s = (s, .ok (BitVec.ofNat 8 k.val :: s.classifier.selectors[k].bytes)) := by
  unfold ownReadSelector; rw [h]

theorem ownReadSelector_no_entry {p : List Byte} (h : selectorOf (byteAt p 0) = none) (s : State) :
    ownReadSelector p s = (s, .bare .range) := by
  unfold ownReadSelector; rw [h]

/-- A request whose owning block replaces one selector entry (R182). -/
theorem State.request_setSelector {s : State} {kind tag : Byte} {p : List Byte} {r : Reply} {k : Fin 32} {e : Selector}
    (own : List Byte → State → State × Reply) (h : s.Admits kind p) (ho : own p s.arrived = (s.arrived.setSelector k e, r)) :
    s.request kind own tag p = (s.setSelector k e).replied kind tag r :=
  State.request_replied own h ho rfl

/-- Settles O13: an index within the table and one above it, for each of the three requests. -/
theorem selectorsWrittenClearedRead : Obligations.SelectorsWrittenClearedRead := by
  intro s e b tag
  refine ⟨fun ha he => ⟨fun k hk => ?_, fun hb => ?_⟩, fun ha => ⟨fun k hk => ?_, fun hb => ?_⟩, fun ha => ⟨fun k hk => ?_, fun hb => ?_⟩⟩
  · rw [exec_writeSelector_released ha.released,
      State.request_setSelector _ ha (ownWriteSelector_taken (selectorOf_byteAt_cons hk e.bytes) (Selector.parse_bytes he b) _)]; rfl
  · rw [exec_writeSelector_released ha.released,
      State.request_answered _ ha (ownWriteSelector_no_entry (selectorOf_byteAt_cons_none hb e.bytes) _)]
  · rw [exec_clearSelector_released ha.released,
      State.request_setSelector _ ha (ownClearSelector_cleared (selectorOf_byteAt_cons hk []) _)]; rfl
  · rw [exec_clearSelector_released ha.released,
      State.request_answered _ ha (ownClearSelector_no_entry (selectorOf_byteAt_cons_none hb []) _)]
  · have hbyte : BitVec.ofNat 8 k.val = b := by rw [← hk, BitVec.ofNat_toNat, BitVec.setWidth_eq]
    rw [exec_readSelector_released ha.released,
      State.request_answered _ ha (ownReadSelector_read (selectorOf_byteAt_cons hk []) _), hbyte]; rfl
  · rw [exec_readSelector_released ha.released,
      State.request_answered _ ha (ownReadSelector_no_entry (selectorOf_byteAt_cons_none hb []) _)]

/-! ## The hand-over without an arrival (R30, R37, R38) -/

theorem sequenceOf_short {p : Profile} {window : List Byte} (h : window.length < p.seqOffset + p.seqWidth) : sequenceOf p window = none :=
  if_neg (Nat.not_le.mpr h)

theorem State.extractAndTake_short {s : State} {m : Matched}
    (h : m.descriptor.window.length < (s.feed m.feed).profile.seqOffset + (s.feed m.feed).profile.seqWidth) :
    s.extractAndTake m = s.countShort m.descriptor.line := by
  unfold State.extractAndTake; rw [sequenceOf_short h]

theorem State.handOver_none {s : State} (h : s.classifier.held = none) : s.handOver = s := by
  unfold State.handOver; rw [h]

theorem State.handOver_closed {s : State} {m : Matched} (h : s.classifier.held = some m) (hs : (s.feed m.feed).state = .closed) :
    s.handOver = s.freeClassifier.count m.feed fun c => { c with whileClosed := c.whileClosed + 1 } := by
  unfold State.handOver; rw [h]; simp only [hs]

theorem State.handOver_open {s : State} {m : Matched} (h : s.classifier.held = some m) (hs : (s.feed m.feed).state ≠ .closed) :
    s.handOver = s.freeClassifier.extractAndTake m := by
  unfold State.handOver; rw [h]; simp only
  cases e : (s.feed m.feed).state with
  | closed => exact absurd e hs
  | armed => rfl
  | running n => rfl

/-- Settles O15: a CLOSED feed is looked at before the window is. -/
theorem handOverWithoutArrival : Obligations.HandOverWithoutArrival := by
  intro s hr
  rw [exec_handOver_released hr]
  refine ⟨fun h => ?_, fun m hm => ⟨fun hs => ?_, fun hs hw => ?_⟩⟩
  · rw [State.handOver_none h]
  · rw [State.handOver_closed hm hs]; rfl
  · rw [State.handOver_open hm hs, State.extractAndTake_short (s := s.freeClassifier) hw]; rfl

/-! ## Latency (R42, R43) -/

/-- A time of day lies within a day. -/
theorem Stamp.dayNs_bounds (x : Stamp) : 0 ≤ x.dayNs ∧ x.dayNs < 86400000000000 := by
  have hs : x.value.seconds.toNat % 86400 < 86400 := Nat.mod_lt _ (by decide)
  have hn := x.value.nanos.isLt
  unfold Stamp.dayNs
  omega

/-- The fold moves a difference by a day at most, in one direction. -/
theorem foldDay_eq (d : Int) : foldDay d = d ∨ foldDay d = d - 86400000000000 ∨ foldDay d = d + 86400000000000 := by
  unfold foldDay; split
  · exact .inr (.inl rfl)
  · split
    · exact .inr (.inr rfl)
    · exact .inl rfl

/-- The fold brings a difference of two times of day into its range (R43). -/
theorem foldDay_bounds {d : Int} (h : -86400000000000 < d) (h' : d < 86400000000000) :
    -43200000000000 < foldDay d ∧ foldDay d ≤ 43200000000000 := by
  unfold foldDay; split
  · omega
  · split <;> omega

theorem latencyOf_day {f : SendFormat} (h : f = .dayNs ∨ f = .dayDec) (x : Stamp) (sent : Nat) :
    latencyOf f x sent = some (foldDay (x.dayNs - sent)) := by
  rcases h with rfl | rfl <;> rfl

/-- Settles O16: SCALE_NS by definition, the two DAY forms by the bounds of the fold. -/
theorem latencyIsTheDifference : Obligations.LatencyIsTheDifference := by
  intro x sent
  refine ⟨rfl, fun hsent f hf => ?_⟩
  obtain ⟨hlo, hhi⟩ := x.dayNs_bounds
  obtain ⟨hfold, hfold'⟩ := foldDay_bounds (d := x.dayNs - sent) (by omega) (by omega)
  exact ⟨_, latencyOf_day hf x sent, hfold, hfold', foldDay_eq _⟩

end Sys2Proof.Machine
end

section
/-! SUPPORT. The balance of R59 at every step: O55, and what any property of the feeds alone needs in order to be kept by every step. -/

namespace Sys2Proof.Machine

/-! ## Properties of the feeds alone -/

/-- What the events that touch a feed, and the resets, keep of a property that speaks of nothing but the feeds. -/
structure FeedEventsKeep (P : State → Prop) : Prop where
  congr : ∀ s t : State, t.feeds = s.feeds → P s → P t
  handOver : ∀ s, P s → P s.handOver
  expirePairing : ∀ i s, P s → P (s.expirePairing i)
  expireGaps : ∀ i s, P s → P (s.expireGaps i)
  expireCandidate : ∀ i s, P s → P (s.expireCandidate i)
  expireSilence : ∀ i l s, P s → P (s.expireSilence i l)
  configureFeed : ∀ p s, P s → P (ownConfigureFeed p s).1
  openFeed : ∀ p s, P s → P (ownOpenFeed p s).1
  closeFeed : ∀ p s, P s → P (ownCloseFeed p s).1
  fresh : ∀ p h c q, P (State.fresh p h c q)

section
variable {P : State → Prop}

theorem feeds_restartBlocks (s : State) : s.restartBlocks.feeds = State.reset.feeds := rfl

theorem feeds_elapse (n : Nat) (s : State) : (s.elapse n).feeds = s.feeds := by
  unfold State.elapse; split <;> rfl

theorem FeedEventsKeep.of_lineActs (o : FeedEventsKeep P) {i : LineId} {s t : State} (h : P s) (a : LineActs i s t) : P t :=
  o.congr s t a.feeds h

theorem FeedEventsKeep.of_timeActs (o : FeedEventsKeep P) {s t : State} (h : P s) (a : TimeActs s t) : P t :=
  o.congr s t a.same.feeds h

/-- A property of the feeds alone is kept by every owning block when the three that touch a feed keep it. -/
theorem FeedEventsKeep.owners (o : FeedEventsKeep P) : OwnersKeep P where
  link s _ h := o.congr s _ rfl h
  notices s _ h := o.congr s _ rfl h
  enableLine p s h := o.congr s _ (feeds_of_line LineActs.ownEnableLine p s) h
  disableLine p s h := o.congr s _ (feeds_of_line LineActs.ownDisableLine p s) h
  configureLine p s h := o.congr s _ (feeds_of_line LineActs.ownConfigureLine p s) h
  writeSelector p s h := o.congr s _ (feeds_writeSelector p s) h
  clearSelector p s h := o.congr s _ (feeds_clearSelector p s) h
  configureFeed := o.configureFeed
  openFeed := o.openFeed
  closeFeed := o.closeFeed
  setTime p s h := o.of_timeActs h (.ownSetTime p s)
  adjustTime p s h := o.of_timeActs h (.ownAdjustTime p s)
  slew p s h := o.of_timeActs h (.ownSlew p s)
  setRate p s h := o.of_timeActs h (.ownSetRate p s)
  configureReference p s h := o.of_timeActs h (.ownConfigureReference p s)
  configureDiscipline p s h := o.of_timeActs h (.ownConfigureDiscipline p s)
  track p s h := o.of_timeActs h (.ownTrack p s)
  measure p s h := o.of_timeActs h (.ownMeasure p s)
  configureQueue p s h := o.congr s _ (feeds_configureQueue p s) h

/-- A property of the feeds alone is kept by every event when the events of a feed and the resets keep it. -/
theorem FeedEventsKeep.events (o : FeedEventsKeep P) : EventsKeep P where
  toOwnersKeep := o.owners
  pins s _ h := o.congr s _ rfl h
  portSignal i b s h := o.of_lineActs h (.portSignal i b s)
  portStart i s h := o.of_lineActs h (.portStart i s)
  portEnd i g b s h := o.of_lineActs h (.portEnd i g b s)
  portQuiet i s h := o.of_lineActs h (.portQuiet i s)
  grant s h := o.congr s _ (feeds_grant s) h
  handOver := o.handOver
  expirePairing := o.expirePairing
  expireGaps := o.expireGaps
  expireCandidate := o.expireCandidate
  expireSilence := o.expireSilence
  expireStats s h := o.congr s _ (expireStats_feeds s) h
  takePulse r e s h := o.of_timeActs h (.takePulse r e s)
  timeoutMonitor r s h := o.of_timeActs h (.timeoutMonitor r s)
  expireHoldover s h := o.of_timeActs h (.expireHoldover s)
  completeSlew s h := o.of_timeActs h (.completeSlew s)
  completeRecord s h := o.congr s _ (completeRecord_feeds s) h
  fresh := o.fresh
  restartBlocks s _ := o.congr State.reset _ (feeds_restartBlocks s) (o.fresh _ _ _ _)
  elapse s h := o.congr s _ (feeds_elapse 1 s) h
  pending s _ h := o.congr s _ rfl h

end

/-! ## O55 -/

/-- An event of some feed keeps the balance when it leaves both sums of that feed as they were. -/
theorem State.CountersBalance.of_some_feed {s t : State} (h : s.CountersBalance) (a : ∃ i, Acts i s t ∧ Moves i s t 0 0) :
    t.CountersBalance := by
  obtain ⟨i, acts, moves⟩ := a
  exact h.of_moves acts moves

theorem State.CountersBalance.handOver {s : State} (h : s.CountersBalance) : s.handOver.CountersBalance := by
  obtain ⟨i, u, hf, -, -, acts, moves⟩ := handOver_acts s
  exact (h.congr hf).of_moves acts moves

/-- The events of a feed and the resets keep the two relations of R59. -/
theorem State.CountersBalance.feedEvents : FeedEventsKeep State.CountersBalance where
  congr _ _ e h := h.congr e
  handOver _ h := h.handOver
  expirePairing i s h := h.of_moves (.expirePairing i s) (.expirePairing i s)
  expireGaps i s h := h.of_moves (.expireGaps i s) (.expireGaps i s)
  expireCandidate i s h := h.of_moves (.expireCandidate i s) (.expireCandidate i s)
  expireSilence i l s h := h.of_moves (.expireSilence i l s) (.expireSilence i l s)
  configureFeed p s h := h.of_some_feed (Acts.ownConfigureFeed p s)
  openFeed p s h := h.of_some_feed (Acts.ownOpenFeed p s)
  closeFeed p s h := h.of_some_feed (Acts.ownCloseFeed p s)
  fresh := State.fresh_countersBalance

/-- Settles O55: every event of a feed leaves copies taken less their outcomes, and first copies less records released and held, as they were. -/
theorem stepKeepsCountersBalance : Obligations.StepKeepsCountersBalance :=
  fun _ _ h e => State.CountersBalance.feedEvents.events.step h e

end Sys2Proof.Machine
end

section
/-! SUPPORT. The timers of a candidate and of a leg, and the requests CONFIGURE FEED, OPEN FEED and CLOSE FEED: O27, O29 and O30. -/

namespace Sys2Proof.Machine

/-! ## Events and requests of a released part -/

theorem exec_candidateExpiry_released {s : State} (h : s.resetHold.held = false) (i : FeedId) :
    exec (.candidateExpiry i) s = .next (s.expireCandidate i) := whenReleased_of _ h

theorem exec_silenceDeadlineExpiry_released {s : State} (h : s.resetHold.held = false) (i : FeedId) (leg : Leg) :
    exec (.silenceDeadlineExpiry i leg) s = .next (s.expireSilence i leg) := whenReleased_of _ h

theorem exec_configureFeed_released {s : State} (h : s.resetHold.held = false) (tag : Byte) (p : List Byte) :
    exec (.configureFeed tag p) s = .next (s.request 0x10 ownConfigureFeed tag p) := whenReleased_of _ h

theorem exec_openFeed_released {s : State} (h : s.resetHold.held = false) (tag : Byte) (p : List Byte) :
    exec (.openFeed tag p) s = .next (s.request 0x11 ownOpenFeed tag p) := whenReleased_of _ h

theorem exec_closeFeed_released {s : State} (h : s.resetHold.held = false) (tag : Byte) (p : List Byte) :
    exec (.closeFeed tag p) s = .next (s.request 0x12 ownCloseFeed tag p) := whenReleased_of _ h

/-! ## CANDIDATE_EXPIRY (R80) -/

/-- A stray counted and the slot emptied is one change of the feed (R80). -/
theorem State.dropCandidate_eq (i : FeedId) (s : State) : s.dropCandidate i = s.onFeed i fun f => { f with
    candidate := none, counters := { f.counters with strays := f.counters.strays + 1 } } := by
  unfold State.dropCandidate State.setCandidate State.count; rw [State.onFeed_onFeed]

theorem State.expireCandidate_due {s : State} {i : FeedId} {c : HeldRecord} (hc : (s.feed i).candidate = some c)
    (hd : reached c.deadline s.now = true) : s.expireCandidate i = s.dropCandidate i := by
  unfold State.expireCandidate; simp only [hc, hd, if_true]

theorem State.expireCandidate_not_due {s : State} {i : FeedId}
    (h : ∀ c, (s.feed i).candidate = some c → reached c.deadline s.now = false) : s.expireCandidate i = s := by
  unfold State.expireCandidate
  cases hc : (s.feed i).candidate with
  | none => rfl
  | some c => simp [h c hc]

/-! ## SILENCE_DEADLINE_EXPIRY (R56, R57) -/

theorem State.expireSilence_due {s : State} {i : FeedId} {leg : Leg} {old : LegState} {d : LocalCount}
    (hw : (s.feed i).leg leg = { state := old, deadline := some d }) (ho : old = .waiting ∨ old = .active) (hd : reached d s.now = true) :
    s.expireSilence i leg =
      (s.setFeed i ((s.feed i).setLeg leg { state := .silent, deadline := none })).reportLeg i leg old .silent s.reading := by
  unfold State.expireSilence; simp only [hw]; exact if_pos ⟨ho, hd⟩

theorem State.expireSilence_not_due {s : State} {i : FeedId} {leg : Leg}
    (h : ¬ ((((s.feed i).leg leg).state = .waiting ∨ ((s.feed i).leg leg).state = .active) ∧
      due ((s.feed i).leg leg).deadline s.now = true)) : s.expireSilence i leg = s := if_neg h

/-- Settles O27: a deadline that is reached and one that is ahead, for the candidate and for a leg. -/
theorem candidatesAndLegsExpire : Obligations.CandidatesAndLegsExpire := by
  refine ⟨fun s i hr => ⟨fun c hc hd => ?_, fun h => ?_⟩, fun s i leg old d hr hw ho => ⟨fun hd => ?_, fun hd => ?_⟩⟩
  · rw [exec_candidateExpiry_released hr, State.expireCandidate_due hc hd, State.dropCandidate_eq]; rfl
  · rw [exec_candidateExpiry_released hr, State.expireCandidate_not_due h]
  · rw [exec_silenceDeadlineExpiry_released hr, State.expireSilence_due hw ho hd]; rfl
  · have hn : due ((s.feed i).leg leg).deadline s.now ≠ true := by rw [hw]; exact Bool.eq_false_iff.mp hd
    rw [exec_silenceDeadlineExpiry_released hr, State.expireSilence_not_due fun h => hn h.2]

/-! ## The profile of a CONFIGURE FEED (R50, R198) -/

theorem ByteOrder.ofCode_code (o : ByteOrder) : ByteOrder.ofCode o.code.toNat = some o := by cases o <;> rfl

theorem SendFormat.ofCode_code (f : SendFormat) : SendFormat.ofCode f.code.toNat = some f := by cases f <;> rfl

/-- The one-byte fields of a profile block. -/
theorem Profile.head_bytes (b : Byte) (c : Profile) :
    byteAt (b :: c.bytes) 1 = c.seqOffset % 256 ∧ byteAt (b :: c.bytes) 2 = c.seqWidth % 256 ∧
      byteAt (b :: c.bytes) 3 = c.seqOrder.code.toNat ∧ byteAt (b :: c.bytes) 4 = c.sendOffset % 256 ∧
      byteAt (b :: c.bytes) 5 = c.sendFormat.code.toNat ∧ byteAt (b :: c.bytes) 6 = c.sendOrder.code.toNat := by
  refine ⟨?_, ?_, ?_, ?_, ?_, ?_⟩ <;>
    simp only [byteAt, Profile.bytes, List.cons_append, fieldAt_cons, fieldAt_cons_byte, Nat.reduceLeDiff, Nat.reduceSub,
      BitVec.toNat_ofNat, Nat.reducePow]

/-- The three times and the jump limit behind them. -/
theorem Profile.tail_bytes (b : Byte) (c : Profile) :
    fieldAt (b :: c.bytes) 7 2 = c.pairing % 256 ^ 2 ∧ fieldAt (b :: c.bytes) 9 2 = c.gap % 256 ^ 2 ∧
      fieldAt (b :: c.bytes) 11 2 = c.silence % 256 ^ 2 ∧ fieldAt (b :: c.bytes) 13 4 = c.jumpLimit % 256 ^ 4 := by
  refine ⟨?_, ?_, ?_, ?_⟩ <;>
    simp only [Profile.bytes, List.cons_append, List.nil_append, List.append_assoc, fieldAt_cons, fieldAt_behind, fieldAt_leBytes_append,
      fieldAt_leBytes, Nat.reduceLeDiff, Nat.reduceSub]

/-- A profile within R50's ranges reads back from a CONFIGURE FEED payload. -/
theorem Profile.parse_bytes {c : Profile} (h : c.InRange) (b : Byte) : Profile.parse (b :: c.bytes) = some c := by
  obtain ⟨hseqOffset, hseqWidth, hseqOrder, hsendOffset, hsendFormat, hsendOrder⟩ := c.head_bytes b
  obtain ⟨hpairing, hgap, hsilence, hjump⟩ := c.tail_bytes b
  obtain ⟨hw, hfit, hso, hsend, hp, hp', hg, hg', hs, hs', hj, hj'⟩ := h
  rw [Nat.mod_eq_of_lt (by omega)] at hseqOffset hseqWidth hsendOffset hpairing hgap hsilence hjump
  unfold Profile.parse
  simp only [hseqOffset, hseqWidth, hseqOrder, hsendOffset, hsendFormat, hsendOrder, hpairing, hgap, hsilence, hjump,
    ByteOrder.ofCode_code, SendFormat.ofCode_code]
  refine if_pos ?_
  simp only [within, Bool.and_eq_true, Bool.or_eq_true, beq_iff_eq, decide_eq_true_iff, or_assoc]
  exact ⟨⟨⟨⟨⟨⟨hw, hp, hp'⟩, hg, hg'⟩, hs, hs'⟩, hj, hj'⟩, hfit⟩, or_iff_not_imp_left.mpr hsend⟩

/-! ## CONFIGURE FEED and OPEN FEED (R50, R51) -/

section
variable {p : List Byte} {s : State} {i : FeedId}

theorem ownConfigureFeed_taken {c : Profile} (h : feedNamed p = some i) (hs : (s.feed i).state = .closed) (hc : Profile.parse p = some c) :
    ownConfigureFeed p s = (s.onFeed i fun f => { f with profile := c }, .ok []) := by
  unfold ownConfigureFeed; simp only [h, hs, hc]

theorem ownConfigureFeed_open (h : feedNamed p = some i) (hs : (s.feed i).state ≠ .closed) : ownConfigureFeed p s = (s, .bare .state) := by
  unfold ownConfigureFeed; simp only [h]; split <;> trivial

theorem ownConfigureFeed_out_of_range (h : feedNamed p = some i) (hs : (s.feed i).state = .closed) (hc : Profile.parse p = none) :
    ownConfigureFeed p s = (s, .bare .range) := by
  unfold ownConfigureFeed; simp only [h, hs, hc]

theorem ownConfigureFeed_no_feed (h : feedNamed p = none) (s : State) : ownConfigureFeed p s = (s, .bare .range) := by
  unfold ownConfigureFeed; rw [h]

theorem ownOpenFeed_closed (h : feedNamed p = some i) (hs : (s.feed i).state = .closed) :
    ownOpenFeed p s = (s.onFeed i (Feed.arm s.now), .ok []) := by
  unfold ownOpenFeed; simp only [h, hs]

theorem ownOpenFeed_open (h : feedNamed p = some i) (hs : (s.feed i).state ≠ .closed) : ownOpenFeed p s = (s, .bare .state) := by
  unfold ownOpenFeed; simp only [h]; split <;> trivial

theorem ownOpenFeed_no_feed (h : feedNamed p = none) (s : State) : ownOpenFeed p s = (s, .bare .range) := by
  unfold ownOpenFeed; rw [h]

end

/-- A request whose owning block replaces one feed record (R182). -/
theorem State.request_setFeed {s : State} {kind tag : Byte} {p : List Byte} {r : Reply} {i : FeedId} {f : Feed}
    (own : List Byte → State → State × Reply) (h : s.Admits kind p) (ho : own p s.arrived = (s.arrived.setFeed i f, r)) :
    s.request kind own tag p = (s.setFeed i f).replied kind tag r :=
  State.request_replied own h ho rfl

/-- Settles O29: a CLOSED feed, an open one, and a number above 15, for each of the two requests. -/
theorem feedIsConfiguredAndOpened : Obligations.FeedIsConfiguredAndOpened := by
  intro s c b tag
  refine ⟨fun ha hc => ⟨fun i hi hs => ?_, fun i hi hs => ?_, fun hb => ?_⟩,
    fun ha => ⟨fun i hi hs => ?_, fun i hi hs => ?_, fun hb => ?_⟩⟩
  · rw [exec_configureFeed_released ha.released,
      State.request_setFeed _ ha (ownConfigureFeed_taken (s := s.arrived) (feedNamed_cons hi _) hs (Profile.parse_bytes hc b))]; rfl
  · rw [exec_configureFeed_released ha.released,
      State.request_answered _ ha (ownConfigureFeed_open (s := s.arrived) (feedNamed_cons hi _) hs)]
  · rw [exec_configureFeed_released ha.released, State.request_answered _ ha (ownConfigureFeed_no_feed (feedNamed_cons_none hb _) _)]
  · rw [exec_openFeed_released ha.released,
      State.request_setFeed _ ha (ownOpenFeed_closed (s := s.arrived) (feedNamed_cons hi _) hs)]; rfl
  · rw [exec_openFeed_released ha.released, State.request_answered _ ha (ownOpenFeed_open (s := s.arrived) (feedNamed_cons hi _) hs)]
  · rw [exec_openFeed_released ha.released, State.request_answered _ ha (ownOpenFeed_no_feed (feedNamed_cons_none hb _) _)]

/-! ## CLOSE FEED (R52) -/

/-- The records that a close offers: the hold list's, then the gap list's (R52 steps 1 and 2). -/
def State.closeRecords (i : FeedId) (s : State) : List Record :=
  releaseRecords i (s.feed i).profile.sendFormat .closed (s.feed i).hold ++ gapRecords i .closed s.reading (s.feed i).gaps

/-- A feed after a close: its lists, its candidate and its legs cleared, its profile kept, and what it held counted (R52). -/
def Feed.closed (f : Feed) : Feed :=
  { state := .closed, profile := f.profile, legA := .none, legB := .none, hold := [], gaps := [], candidate := none
    counters := .declared f.gaps (.released f.hold { f.counters with
      strays := f.counters.strays + if f.candidate.isSome then 1 else 0 }) }

/-- A candidate discarded counts as a stray, and an empty slot as none (R52 step 3). -/
theorem State.discardCandidate_eq (i : FeedId) (s : State) : s.discardCandidate i = s.onFeed i fun f => { f with
    candidate := none
    counters := { f.counters with strays := f.counters.strays + if f.candidate.isSome then 1 else 0 } } := by
  unfold State.discardCandidate
  cases hc : (s.feed i).candidate with
  | some c =>
    rw [State.dropCandidate_eq]
    exact State.onFeed_congr (by rw [hc]; rfl)
  | none =>
    conv_lhs => rw [← State.onFeed_id s i]
    refine State.onFeed_congr ?_
    generalize s.feed i = f at hc
    obtain ⟨_, _, _, _, _, _, candidate, _⟩ := f
    subst hc
    simp

/-- The four steps of a close are the offer of its records and one change of the feed (R52). -/
theorem State.closeFeed_eq (i : FeedId) (s : State) :
    s.closeFeed i = (s.offerAll (s.closeRecords i)).setFeed i (s.feed i).closed := by
  have hg : ((s.flushHold i .closed).feed i).gaps = (s.feed i).gaps := by rw [State.flushHold_eq]; simp [State.feed_offerAll]
  have hr : (s.flushHold i .closed).reading = s.reading := (Acts.flushHold i .closed s).reading
  unfold State.closeFeed State.closeRecords
  rw [State.flushGaps_eq i .closed (s.flushHold i .closed), hg, hr, State.flushHold_eq, State.discardCandidate_eq, State.offerAll_append]
  simp only [State.onFeed_offerAll, State.onFeed_onFeed, State.setFeed_eq]
  refine State.onFeed_congr ?_
  rw [State.feed_offerAll, State.feed_offerAll]
  rfl

section
variable {p : List Byte} {s : State} {i : FeedId}

theorem ownCloseFeed_open (h : feedNamed p = some i) (hs : (s.feed i).state ≠ .closed) : ownCloseFeed p s = (s.closeFeed i, .ok []) := by
  unfold ownCloseFeed; simp only [h]; split <;> trivial

theorem ownCloseFeed_closed (h : feedNamed p = some i) (hs : (s.feed i).state = .closed) : ownCloseFeed p s = (s, .bare .state) := by
  unfold ownCloseFeed; simp only [h, hs]

theorem ownCloseFeed_no_feed (h : feedNamed p = none) (s : State) : ownCloseFeed p s = (s, .bare .range) := by
  unfold ownCloseFeed; rw [h]

end

/-- Records offered behind a frame's arrival are offered with the link as the arrival left it. -/
theorem State.arrived_offerAll (rs : List Record) (s : State) :
    s.arrived.offerAll rs = { s.offerAll rs with link := s.arrived.link } := by
  induction rs generalizing s with
  | nil => rfl
  | cons r rs ih => exact ih (s.offer r)

/-- A close behind a frame's arrival is the close, with the link as the arrival left it. -/
theorem State.arrived_closeFeed (i : FeedId) (s : State) : s.arrived.closeFeed i = { s.closeFeed i with link := s.arrived.link } := by
  have hrecords : s.arrived.closeRecords i = s.closeRecords i := rfl
  rw [State.closeFeed_eq, State.closeFeed_eq, hrecords, State.arrived_offerAll]
  rfl

/-- Settles O30: an open feed, a CLOSED one, and a number above 15. -/
theorem feedIsClosed : Obligations.FeedIsClosed := by
  intro s b tag ha
  rw [exec_closeFeed_released ha.released]
  refine ⟨fun i hi hs => ?_, fun i hi hs => ?_, fun hb => ?_⟩
  · have ho := ownCloseFeed_open (s := s.arrived) (feedNamed_cons hi []) hs
    rw [State.arrived_closeFeed] at ho
    rw [State.request_replied _ ha ho (Acts.closeFeed i s).same.link, State.closeFeed_eq]; rfl
  · rw [State.request_answered _ ha (ownCloseFeed_closed (s := s.arrived) (feedNamed_cons hi []) hs)]
  · rw [State.request_answered _ ha (ownCloseFeed_no_feed (feedNamed_cons_none hb []) _)]

end Sys2Proof.Machine
end

section
/-! SUPPORT. The bounds of the hold pool and of the gap lists under the operations of the feed engine (R92, R94, R103, R105, R107). -/

namespace Sys2Proof.Machine

/-! ## The pool (R92) -/

/-- A feed replaced moves the pool's count by the difference of the two hold lists. -/
theorem State.heldCount_setFeed (s : State) (i : FeedId) (f : Feed) :
    heldCount (s.setFeed i f).feeds.toList + (s.feed i).hold.length = heldCount s.feeds.toList + f.hold.length := by
  have hset : ∀ g : Feed, heldCount (s.feeds.set i.val g i.isLt).toList =
      ((s.feeds.toList.map fun f => f.hold.length).take i.val).sum + g.hold.length +
        ((s.feeds.toList.map fun f => f.hold.length).drop (i.val + 1)).sum := by
    intro g
    unfold heldCount
    rw [Vector.toList_set, List.map_set, List.sum_set, if_pos (by simp)]
  have hnew := hset f
  have hsame := hset (s.feed i)
  rw [show s.feeds.set i.val (s.feed i) i.isLt = s.feeds from Vector.set_getElem_self i.isLt] at hsame
  show heldCount (s.feeds.set i.val f i.isLt).toList + _ = _
  omega

/-- The pool is not overdrawn (R92). -/
def State.PoolHolds (s : State) : Prop := heldCount s.feeds.toList ≤ Config.poolSize

theorem State.PoolHolds.congr {s t : State} (h : s.PoolHolds) (e : t.feeds = s.feeds) : t.PoolHolds := by
  unfold State.PoolHolds; rw [e]; exact h

/-- A hold list that does not grow takes nothing from the pool. -/
theorem State.PoolHolds.setFeed {s : State} (h : s.PoolHolds) (i : FeedId) {f : Feed} (hf : f.hold.length ≤ (s.feed i).hold.length) :
    (s.setFeed i f).PoolHolds := by
  have hc := s.heldCount_setFeed i f
  unfold State.PoolHolds at *
  omega

/-- One more record takes one entry, which a pool with a free entry has (R92, R94). -/
theorem State.PoolHolds.grow {s : State} (hfree : s.freeCount ≠ 0) (i : FeedId) {f : Feed}
    (hf : f.hold.length = (s.feed i).hold.length + 1) : (s.setFeed i f).PoolHolds := by
  have hc := s.heldCount_setFeed i f
  unfold State.freeCount at hfree
  unfold State.PoolHolds
  omega

/-! ## What the operations on an open feed keep -/

/-- A feed with an expected number (R47). -/
def Feed.Running (f : Feed) : Prop := ∃ e, f.state = .running e

/-- An operation of the feed engine on feed i that leaves its legs alone, overdraws neither the pool nor the gap list, and keeps a RUNNING
feed RUNNING. -/
structure KeepsBounds (i : FeedId) (s t : State) : Prop where
  legA : (t.feed i).legA = (s.feed i).legA
  legB : (t.feed i).legB = (s.feed i).legB
  running : (s.feed i).Running → (t.feed i).Running
  gaps : (s.feed i).gaps.length ≤ Config.gapPlaces → (t.feed i).gaps.length ≤ Config.gapPlaces
  pool : s.PoolHolds → t.PoolHolds

theorem KeepsBounds.refl (i : FeedId) (s : State) : KeepsBounds i s s := ⟨rfl, rfl, id, id, id⟩

theorem KeepsBounds.trans {i : FeedId} {s t u : State} (a : KeepsBounds i s t) (b : KeepsBounds i t u) : KeepsBounds i s u :=
  ⟨b.legA.trans a.legA, b.legB.trans a.legB, b.running ∘ a.running, b.gaps ∘ a.gaps, b.pool ∘ a.pool⟩

theorem KeepsBounds.of_feeds (i : FeedId) {s t : State} (h : t.feeds = s.feeds) : KeepsBounds i s t := by
  have hf : t.feed i = s.feed i := State.feed_congr h i
  exact ⟨by rw [hf], by rw [hf], by rw [hf]; exact id, by rw [hf]; exact id, fun hp => hp.congr h⟩

/-- A change of the feed that leaves its legs and its state alone and makes neither list longer than it may be. -/
theorem KeepsBounds.onFeed (i : FeedId) (s : State) (g : Feed → Feed) (ha : (g (s.feed i)).legA = (s.feed i).legA)
    (hb : (g (s.feed i)).legB = (s.feed i).legB) (hs : (s.feed i).Running → (g (s.feed i)).Running)
    (hg : (s.feed i).gaps.length ≤ Config.gapPlaces → (g (s.feed i)).gaps.length ≤ Config.gapPlaces)
    (hh : (g (s.feed i)).hold.length ≤ (s.feed i).hold.length) : KeepsBounds i s (s.onFeed i g) := by
  refine ⟨?_, ?_, ?_, ?_, fun hp => hp.setFeed i hh⟩ <;> rw [State.feed_onFeed] <;> assumption

theorem KeepsBounds.offer (i : FeedId) (s : State) (r : Record) : KeepsBounds i s (s.offer r) := .of_feeds i rfl

theorem KeepsBounds.count (i : FeedId) (s : State) (g : FeedCounters → FeedCounters) : KeepsBounds i s (s.count i g) :=
  .onFeed i s _ rfl rfl id id le_rfl

theorem KeepsBounds.setCandidate (i : FeedId) (s : State) (c : Option HeldRecord) : KeepsBounds i s (s.setCandidate i c) :=
  .onFeed i s _ rfl rfl id id le_rfl

theorem KeepsBounds.setRunning (i : FeedId) (s : State) (e : SeqNum) : KeepsBounds i s (s.setFeedState i (.running e)) :=
  .onFeed i s _ rfl rfl (fun _ => ⟨e, rfl⟩) id le_rfl

theorem KeepsBounds.setHold (i : FeedId) (s : State) {l : List HeldRecord} (h : l.length ≤ (s.feed i).hold.length) :
    KeepsBounds i s (s.setHold i l) := .onFeed i s _ rfl rfl id id h

theorem KeepsBounds.setGaps (i : FeedId) (s : State) {l : List GapRange}
    (h : (s.feed i).gaps.length ≤ Config.gapPlaces → l.length ≤ Config.gapPlaces) : KeepsBounds i s (s.setGaps i l) :=
  .onFeed i s _ rfl rfl id h le_rfl

/-- A record joins the hold list only while the pool has a free entry (R94). -/
theorem KeepsBounds.appendHold (i : FeedId) (s : State) (h : HeldRecord) (hfree : s.freeCount ≠ 0) :
    KeepsBounds i s (s.setHold i ((s.feed i).hold ++ [h])) := by
  refine ⟨?_, ?_, ?_, ?_, fun _ => State.PoolHolds.grow hfree i List.length_append⟩ <;> rw [State.setHold, State.feed_onFeed]
  · exact id
  · exact id

/-! ## Releases and declarations (R100, R102, R111) -/

theorem KeepsBounds.release (i : FeedId) (st : TwinStatus) (h : HeldRecord) (s : State) : KeepsBounds i s (s.release i st h) :=
  (KeepsBounds.offer i s _).trans (.count i _ _)

theorem KeepsBounds.releaseAll (i : FeedId) (rs : List (TwinStatus × HeldRecord)) (s : State) : KeepsBounds i s (s.releaseAll i rs) := by
  induction rs generalizing s with
  | nil => exact .refl i s
  | cons r rs ih => exact (KeepsBounds.release i r.1 r.2 s).trans (ih _)

theorem KeepsBounds.declare (i : FeedId) (c : GapCause) (g : GapRange) (s : State) : KeepsBounds i s (s.declare i c g) :=
  (KeepsBounds.offer i s _).trans (.count i _ _)

theorem KeepsBounds.declareAll (i : FeedId) (c : GapCause) (gs : List GapRange) (s : State) : KeepsBounds i s (s.declareAll i c gs) := by
  induction gs generalizing s with
  | nil => exact .refl i s
  | cons g gs ih => exact (KeepsBounds.declare i c g s).trans (ih _)

/-- Records taken off a hold list and released. -/
theorem KeepsBounds.releaseFrom (i : FeedId) (s : State) {left : List HeldRecord} (rs : List (TwinStatus × HeldRecord))
    (h : left.length ≤ (s.feed i).hold.length) : KeepsBounds i s ((s.setHold i left).releaseAll i rs) :=
  (KeepsBounds.setHold i s h).trans (.releaseAll i rs _)

/-- Ranges taken off a gap list and declared. -/
theorem KeepsBounds.declareFrom (i : FeedId) (s : State) {left : List GapRange} (c : GapCause) (gs : List GapRange)
    (h : left.length ≤ (s.feed i).gaps.length) : KeepsBounds i s ((s.setGaps i left).declareAll i c gs) :=
  (KeepsBounds.setGaps i s h.trans).trans (.declareAll i c gs _)

theorem KeepsBounds.chain (i : FeedId) (s : State) : KeepsBounds i s (s.chain i) :=
  .releaseFrom i s _ (by rw [chain_length s.now (s.feed i).hold]; exact Nat.le_add_left _ _)

theorem KeepsBounds.flushHold (i : FeedId) (st : TwinStatus) (s : State) : KeepsBounds i s (s.flushHold i st) :=
  .releaseFrom i s _ (Nat.zero_le _)

theorem KeepsBounds.flushGaps (i : FeedId) (c : GapCause) (s : State) : KeepsBounds i s (s.flushGaps i c) :=
  .declareFrom i s c _ (Nat.zero_le _)

theorem KeepsBounds.expireGaps (i : FeedId) (s : State) : KeepsBounds i s (s.expireGaps i) :=
  .declareFrom i s _ _ (List.length_dropWhile_le _ _)

theorem KeepsBounds.expirePairing (i : FeedId) (s : State) : KeepsBounds i s (s.expirePairing i) := by
  unfold State.expirePairing
  split
  · split
    · exact .chain i s
    · exact .refl i s
  · exact .refl i s

/-! ## The gap list (R105 to R107) -/

/-- A range that splits takes one more place, and when none is left the oldest range gives way (R107). -/
theorem KeepsBounds.splitGap (i : FeedId) (n : SeqNum) {b : List GapRange} {g : GapRange} {a : List GapRange} (s : State)
    (h : (s.feed i).gaps = b ++ g :: a) : KeepsBounds i s (s.splitGap i n b g a) := by
  have hlen : (s.feed i).gaps.length = b.length + (a.length + 1) := by rw [h, List.length_append, List.length_cons]
  unfold State.splitGap
  split
  · rename_i hroom
    refine .setGaps i s fun _ => ?_
    simp only [List.length_append, List.length_cons]
    omega
  · split
    · refine (KeepsBounds.setGaps i s fun hfull => ?_).trans (.declare i _ _ _)
      simp only [List.length_nil, List.length_cons] at hlen ⊢
      omega
    · refine (KeepsBounds.setGaps i s fun hfull => ?_).trans (.declare i _ _ _)
      simp only [List.length_append, List.length_cons] at hlen ⊢
      omega

theorem KeepsBounds.takeFromGap (i : FeedId) (n : SeqNum) {b : List GapRange} {g : GapRange} {a : List GapRange} (s : State)
    (h : (s.feed i).gaps = b ++ g :: a) : KeepsBounds i s (s.takeFromGap i n b g a) := by
  have shrunk : ∀ r : GapRange, (s.feed i).gaps.length ≤ Config.gapPlaces → (b ++ r :: a).length ≤ Config.gapPlaces := by
    intro r hg; rw [h] at hg; simpa using hg
  have closed : (s.feed i).gaps.length ≤ Config.gapPlaces → (b ++ a).length ≤ Config.gapPlaces := by
    intro hg; rw [h] at hg; simp only [List.length_append, List.length_cons] at hg ⊢; omega
  unfold State.takeFromGap
  split
  · exact (KeepsBounds.setGaps i s closed).trans (.count i _ _)
  · split
    · exact .setGaps i s (shrunk _)
    · split
      · exact .setGaps i s (shrunk _)
      · exact .splitGap i n s h

theorem KeepsBounds.removeFromGaps (i : FeedId) (n : SeqNum) (s : State) : KeepsBounds i s (s.removeFromGaps i n) := by
  unfold State.removeFromGaps
  simp only
  split
  · rename_i g behindIt hd
    exact .takeFromGap i n s (by rw [← hd, List.takeWhile_append_dropWhile])
  · exact .refl i s

/-- A fifth range is opened only when the oldest has gone (R105). -/
theorem KeepsBounds.openGap (i : FeedId) (f l : SeqNum) (o : Stamp) (s : State) : KeepsBounds i s (s.openGap i f l o) := by
  unfold State.openGap
  simp only
  split
  · rename_i oldest rest hgaps
    split
    · rename_i hroom
      refine (KeepsBounds.setGaps i s fun _ => ?_).trans (.count i _ _)
      rw [List.length_append]; exact hroom
    · refine ((KeepsBounds.setGaps i s fun hfull => ?_).trans (.declare i _ _ _)).trans (.count i _ _)
      rw [hgaps] at hfull; simpa using hfull
  · exact (KeepsBounds.setGaps i s fun _ => by simp [Config.gapPlaces]).trans (.count i _ _)

/-! ## The arrival (R63 to R88) -/

theorem KeepsBounds.bypass (i : FeedId) (h : HeldRecord) (s : State) : KeepsBounds i s (s.bypass i h) :=
  (KeepsBounds.count i s _).trans (.release i _ _ _)

/-- A record is created on the hold list with a free entry, and past it without (R67, R94). -/
theorem KeepsBounds.create (i : FeedId) (a : Arrival) (late : Bool) (s : State) : KeepsBounds i s (s.create i a late) := by
  unfold State.create
  simp only
  split
  · exact (KeepsBounds.count i s _).trans (.bypass i _ _)
  · rename_i hfree
    exact (KeepsBounds.count i s _).trans (.appendHold i _ _ hfree)

theorem KeepsBounds.meetCandidate (i : FeedId) (h : HeldRecord) (a : Arrival) (s : State) : KeepsBounds i s (s.meetCandidate i h a) :=
  (KeepsBounds.setCandidate i s _).trans (.count i _ _)

theorem KeepsBounds.meetHeld (i : FeedId) (h : HeldRecord) (a : Arrival) (s : State) : KeepsBounds i s (s.meetHeld i h a) := by
  have met : KeepsBounds i s ((s.setHold i (replaceHeld a.number (h.meet a.copy) (s.feed i).hold)).count i (countMeet h a.copy)) :=
    (KeepsBounds.setHold i s (replaceHeld_length _ _ _).le).trans (.count i _ _)
  unfold State.meetHeld
  simp only
  split
  · exact met.trans (.chain i _)
  · exact met

theorem KeepsBounds.lateFill (i : FeedId) (a : Arrival) (s : State) : KeepsBounds i s (s.lateFill i a) :=
  ((KeepsBounds.removeFromGaps i _ s).trans (.create i a true _)).trans (.count i _ _)

theorem KeepsBounds.ageGaps (i : FeedId) (e : SeqNum) (s : State) : KeepsBounds i s (s.ageGaps i e) :=
  .declareFrom i s _ _ (List.length_filter_le _ _)

theorem KeepsBounds.ageHeld (i : FeedId) (e : SeqNum) (s : State) : KeepsBounds i s (s.ageHeld i e) := by
  unfold State.ageHeld
  simp only
  split
  · exact .refl i s
  · exact (KeepsBounds.releaseFrom i s _ (by rw [List.length_drop]; exact Nat.sub_le _ _)).trans (.chain i _)

theorem KeepsBounds.dropCandidate (i : FeedId) (s : State) : KeepsBounds i s (s.dropCandidate i) :=
  (KeepsBounds.setCandidate i s _).trans (.count i _ _)

theorem KeepsBounds.expireCandidate (i : FeedId) (s : State) : KeepsBounds i s (s.expireCandidate i) := by
  unfold State.expireCandidate
  split
  · split
    · exact .dropCandidate i s
    · exact .refl i s
  · exact .refl i s

theorem KeepsBounds.ageCandidate (i : FeedId) (e : SeqNum) (s : State) : KeepsBounds i s (s.ageCandidate i e) := by
  unfold State.ageCandidate
  split
  · split
    · exact .refl i s
    · exact .dropCandidate i s
  · exact .refl i s

theorem KeepsBounds.age (i : FeedId) (e : SeqNum) (s : State) : KeepsBounds i s (s.age i e) :=
  ((KeepsBounds.ageGaps i e s).trans (.ageHeld i e _)).trans (.ageCandidate i e _)

theorem KeepsBounds.inOrder (i : FeedId) (a : Arrival) (s : State) : KeepsBounds i s (s.inOrder i a) :=
  ((KeepsBounds.create i a false s).trans (.setRunning i _ _)).trans (.age i _ _)

theorem KeepsBounds.ahead (i : FeedId) (e : SeqNum) (a : Arrival) (s : State) : KeepsBounds i s (s.ahead i e a) :=
  (((KeepsBounds.openGap i _ _ _ s).trans (.create i a false _)).trans (.setRunning i _ _)).trans (.age i _ _)

theorem KeepsBounds.becomeCandidate (i : FeedId) (a : Arrival) (s : State) : KeepsBounds i s (s.becomeCandidate i a) := by
  unfold State.becomeCandidate
  simp only
  split
  · exact (KeepsBounds.dropCandidate i s).trans (.setCandidate i _ _)
  · exact .setCandidate i s _

theorem KeepsBounds.place (i : FeedId) (e : SeqNum) (a : Arrival) (s : State) : KeepsBounds i s (s.place i e a) := by
  unfold State.place
  split
  · exact .inOrder i a s
  · split
    · exact .becomeCandidate i a s
    · split
      · exact .count i s _
      · exact .ahead i e a s

/-- A candidate joins the hold list with a free entry, and is released at once without (R83). -/
theorem KeepsBounds.promote (i : FeedId) (c : HeldRecord) (s : State) : KeepsBounds i s (s.promote i c) := by
  unfold State.promote
  simp only
  have h := (KeepsBounds.setCandidate i s none).trans (.count i _ fun k => { k with firstCopies := k.firstCopies + 1 })
  split
  · split
    · exact h.trans (.release i _ _ _)
    · exact h.trans (.bypass i _ _)
  · rename_i hfree
    exact (h.trans (.appendHold i _ _ hfree)).trans (.chain i _)

theorem KeepsBounds.confirmRestart (i : FeedId) (e : SeqNum) (c : HeldRecord) (a : Arrival) (s : State) :
    KeepsBounds i s (s.confirmRestart i e c a) := by
  unfold State.confirmRestart
  refine KeepsBounds.trans (t := (s.flushHold i .restart).flushGaps i .restart) ((KeepsBounds.flushHold i _ s).trans (.flushGaps i _ _)) ?_
  generalize (s.flushHold i .restart).flushGaps i .restart = u
  exact (((KeepsBounds.offer i u _).trans (.setRunning i _ _)).trans (.promote i c _)).trans (.count i _ _)

theorem KeepsBounds.confirmOrPlace (i : FeedId) (e : SeqNum) (a : Arrival) (s : State) : KeepsBounds i s (s.confirmOrPlace i e a) := by
  unfold State.confirmOrPlace
  split
  · split
    · exact (KeepsBounds.confirmRestart i e _ a s).trans (.place i _ a _)
    · exact .place i e a s
  · exact .place i e a s

theorem KeepsBounds.checkLists (i : FeedId) (e : SeqNum) (a : Arrival) (s : State) : KeepsBounds i s (s.checkLists i e a) := by
  unfold State.checkLists
  split
  · exact .meetHeld i _ a s
  · split
    · exact .lateFill i a s
    · exact .confirmOrPlace i e a s

theorem KeepsBounds.arbitrate (i : FeedId) (e : SeqNum) (a : Arrival) (s : State) : KeepsBounds i s (s.arbitrate i e a) := by
  unfold State.arbitrate
  split
  · split
    · exact .meetCandidate i _ a s
    · exact .checkLists i e a s
  · exact .checkLists i e a s

/-- The first arrival of an ARMED feed keeps the bounds and leaves it RUNNING (R64). -/
theorem KeepsBounds.firstArrival (i : FeedId) (a : Arrival) (s : State) :
    KeepsBounds i s (s.firstArrival i a) ∧ ((s.firstArrival i a).feed i).Running := by
  have aged : ∀ u : State, KeepsBounds i u ((u.ageGaps i (a.number + 1)).ageHeld i (a.number + 1)) := fun u =>
    (KeepsBounds.ageGaps i _ u).trans (.ageHeld i _ _)
  refine ⟨((KeepsBounds.create i a false s).trans (.setRunning i _ _)).trans (aged _), (aged _).running ⟨a.number + 1, ?_⟩⟩
  rw [State.setFeedState, State.feed_onFeed]

end Sys2Proof.Machine
end

section
/-! SUPPORT. The feeds' invariant (R47, R55, R56, R92, R103): kept by every event of a feed, and so by every step (O57). -/

namespace Sys2Proof.Machine

/-! ## One feed -/

/-- A leg of an open feed: it has a state, and a silence deadline exactly while WAITING or ACTIVE (R47, R56). -/
structure LegWatch.Live (w : LegWatch) : Prop where
  named : w.state ≠ .none
  timed : w.Timed

/-- What the invariant says of one feed: without an expected number it holds nothing, CLOSED it has no legs, and open it has two (R47, R56,
R103). -/
structure Feed.Sound (f : Feed) : Prop where
  idle : ¬ f.Running → f.hold = [] ∧ f.gaps = [] ∧ f.candidate = none
  shut : f.state = .closed → f.legA = .none ∧ f.legB = .none
  live : f.state ≠ .closed → f.legA.Live ∧ f.legB.Live
  gaps : f.gaps.length ≤ Config.gapPlaces

theorem LegWatch.none_timed : LegWatch.none.Timed := by unfold LegWatch.Timed; decide

theorem LegWatch.live_of_deadline {st : LegState} (h : st = .waiting ∨ st = .active) (d : LocalCount) :
    LegWatch.Live { state := st, deadline := some d } :=
  ⟨by rcases h with rfl | rfl <;> exact LegState.noConfusion, ⟨fun _ => h, fun _ => rfl⟩⟩

theorem LegWatch.silent_live : LegWatch.Live { state := .silent, deadline := Option.none } :=
  ⟨LegState.noConfusion, by unfold LegWatch.Timed; decide⟩

/-- The parts of R47 by the questions whether the feed is RUNNING and whether it is CLOSED. -/
theorem Feed.shaped_iff (f : Feed) : f.Shaped ↔
    (¬ f.Running → f.hold = [] ∧ f.gaps = [] ∧ f.candidate = none) ∧ (f.state = .closed → f.legA = .none ∧ f.legB = .none) ∧
      (f.state ≠ .closed → f.legA.state ≠ .none ∧ f.legB.state ≠ .none) := by
  unfold Feed.Shaped Feed.Running
  cases f.state <;> simp [and_assoc]

theorem Feed.sound_iff (f : Feed) :
    f.Sound ↔ f.Shaped ∧ f.gaps.length ≤ Config.gapPlaces ∧ f.legA.Timed ∧ f.legB.Timed := by
  rw [Feed.shaped_iff]
  constructor
  · rintro ⟨hidle, hshut, hlive, hg⟩
    refine ⟨⟨hidle, hshut, fun ho => ⟨(hlive ho).1.named, (hlive ho).2.named⟩⟩, hg, ?_⟩
    by_cases hc : f.state = .closed
    · obtain ⟨ha, hb⟩ := hshut hc
      rw [ha, hb]; exact ⟨LegWatch.none_timed, LegWatch.none_timed⟩
    · exact ⟨(hlive hc).1.timed, (hlive hc).2.timed⟩
  · rintro ⟨⟨hidle, hshut, hnamed⟩, hg, ha, hb⟩
    exact ⟨hidle, hshut, fun ho => ⟨⟨(hnamed ho).1, ha⟩, ⟨(hnamed ho).2, hb⟩⟩, hg⟩

theorem Feed.Sound.of_running {f : Feed} (h : f.Running) (hg : f.gaps.length ≤ Config.gapPlaces) (hlive : f.legA.Live ∧ f.legB.Live) :
    f.Sound := by
  refine ⟨fun hn => absurd h hn, fun hc => ?_, fun _ => hlive, hg⟩
  obtain ⟨e, he⟩ := h
  exact nomatch he.symm.trans hc

/-- A live leg set in an open feed keeps it sound (R55, R56). -/
theorem Feed.Sound.setLeg {f : Feed} (h : f.Sound) (ho : f.state ≠ .closed) (leg : Leg) {w : LegWatch} (hw : w.Live) :
    (f.setLeg leg w).Sound := by
  obtain ⟨ha, hb⟩ := h.live ho
  cases leg with
  | a => exact ⟨h.idle, fun hc => absurd hc ho, fun _ => ⟨hw, hb⟩, h.gaps⟩
  | b => exact ⟨h.idle, fun hc => absurd hc ho, fun _ => ⟨ha, hw⟩, h.gaps⟩

/-- A CLOSED feed opened has both legs WAITING and holds nothing yet (R51). -/
theorem Feed.Sound.arm {f : Feed} (h : f.Sound) (hc : f.state = .closed) (now : LocalCount) : (f.arm now).Sound := by
  have hn : ¬ f.Running := fun ⟨e, he⟩ => nomatch he.symm.trans hc
  have waiting : (waitingLeg f.profile now).Live := LegWatch.live_of_deadline (.inl rfl) _
  exact ⟨fun _ => h.idle hn, nofun, fun _ => ⟨waiting, waiting⟩, h.gaps⟩

/-- A feed after a close has the parts of a CLOSED one (R52). -/
theorem Feed.closed_sound (f : Feed) : f.closed.Sound :=
  ⟨fun _ => ⟨rfl, rfl, rfl⟩, fun _ => ⟨rfl, rfl⟩, fun ho => absurd rfl ho, Nat.zero_le _⟩

/-! ## The sixteen feeds -/

theorem State.feedsSound_iff (s : State) : s.FeedsSound ↔ s.PoolHolds ∧ ∀ i, (s.feed i).Sound :=
  and_congr_right fun _ => forall_congr' fun i => (s.feed i).sound_iff.symm

theorem State.FeedsSound.pool {s : State} (h : s.FeedsSound) : s.PoolHolds := h.1

theorem State.FeedsSound.feed {s : State} (h : s.FeedsSound) (i : FeedId) : (s.feed i).Sound := (s.feedsSound_iff.mp h).2 i

theorem State.FeedsSound.congr {s t : State} (h : s.FeedsSound) (e : t.feeds = s.feeds) : t.FeedsSound :=
  t.feedsSound_iff.mpr ⟨h.pool.congr e, fun i => by rw [State.feed_congr e]; exact h.feed i⟩

/-- An event of feed i keeps the invariant when it leaves the feed sound and the pool not overdrawn. -/
theorem State.FeedsSound.of_acts {i : FeedId} {s t : State} (h : s.FeedsSound) (a : Acts i s t) (hp : t.PoolHolds)
    (hf : (t.feed i).Sound) : t.FeedsSound := by
  refine t.feedsSound_iff.mpr ⟨hp, fun j => ?_⟩
  by_cases hj : i = j
  · subst hj; exact hf
  · rw [a.others j hj]; exact h.feed j

theorem State.FeedsSound.setFeed {s : State} (h : s.FeedsSound) (i : FeedId) {f : Feed} (hf : f.Sound)
    (hh : f.hold.length ≤ (s.feed i).hold.length) : (s.setFeed i f).FeedsSound :=
  h.of_acts (.setFeed i s f) (h.pool.setFeed i hh) (by rw [State.feed_setFeed]; exact hf)

/-- The counters of a feed have no part in the invariant. -/
theorem State.FeedsSound.count {s : State} (h : s.FeedsSound) (i : FeedId) (g : FeedCounters → FeedCounters) : (s.count i g).FeedsSound := by
  obtain ⟨hidle, hshut, hlive, hg⟩ := h.feed i
  exact h.setFeed i ⟨hidle, hshut, hlive, hg⟩ le_rfl

/-- An operation on an open feed that keeps the bounds and ends in RUNNING. -/
theorem State.FeedsSound.of_bounded {i : FeedId} {s t : State} (h : s.FeedsSound) (a : Acts i s t) (b : KeepsBounds i s t)
    (ho : (s.feed i).state ≠ .closed) (hr : (t.feed i).Running) : t.FeedsSound :=
  h.of_acts a (b.pool h.pool) (.of_running hr (b.gaps (h.feed i).gaps) (by rw [b.legA, b.legB]; exact (h.feed i).live ho))

theorem Feed.Running.ne_closed {f : Feed} (h : f.Running) : f.state ≠ .closed := by
  obtain ⟨e, he⟩ := h
  rw [he]; exact FeedState.noConfusion

/-! ## Expiries -/

/-- An expiry on a list or on the candidate finds nothing in a feed that is not RUNNING. -/
theorem State.FeedsSound.of_expiry {i : FeedId} {s t : State} (h : s.FeedsSound) (a : Acts i s t) (b : KeepsBounds i s t)
    (hidle : (s.feed i).hold = [] → (s.feed i).gaps = [] → (s.feed i).candidate = none → t = s) : t.FeedsSound := by
  by_cases hr : (s.feed i).Running
  · exact h.of_bounded a b hr.ne_closed (b.running hr)
  · obtain ⟨hh, hg, hc⟩ := (h.feed i).idle hr
    rw [hidle hh hg hc]; exact h

theorem State.expirePairing_none {s : State} {i : FeedId} (h : (s.feed i).hold = []) : s.expirePairing i = s := by
  unfold State.expirePairing; rw [h]

theorem State.expireGaps_none {s : State} {i : FeedId} (h : (s.feed i).gaps = []) : s.expireGaps i = s := by
  unfold State.expireGaps
  rw [h]
  simp only [List.dropWhile_nil, List.takeWhile_nil, State.declareAll, List.foldl_nil, State.setGaps]
  conv_rhs => rw [← State.onFeed_id s i]
  exact State.onFeed_congr (by rw [← h])

theorem State.expireCandidate_none {s : State} {i : FeedId} (h : (s.feed i).candidate = none) : s.expireCandidate i = s :=
  State.expireCandidate_not_due fun _ hc => nomatch h.symm.trans hc

/-- A leg of a CLOSED feed has no deadline to reach, and one of an open feed becomes SILENT (R56). -/
theorem State.FeedsSound.expireSilence {s : State} (h : s.FeedsSound) (i : FeedId) (leg : Leg) : (s.expireSilence i leg).FeedsSound := by
  unfold State.expireSilence
  simp only
  split
  · rename_i hdue
    have ho : (s.feed i).state ≠ .closed := by
      intro hc
      obtain ⟨ha, hb⟩ := (h.feed i).shut hc
      have hnone : (s.feed i).leg leg = .none := by cases leg; exacts [ha, hb]
      rw [hnone] at hdue
      exact hdue.1.elim nofun nofun
    obtain ⟨-, -, hhold, -, -⟩ := setLeg_state (s.feed i) leg { state := .silent, deadline := none }
    exact (h.setFeed i ((h.feed i).setLeg ho leg LegWatch.silent_live) (by rw [hhold])).congr rfl
  · exact h

/-! ## Arrivals -/

theorem State.FeedsSound.updateLeg {s : State} (h : s.FeedsSound) (i : FeedId) (ho : (s.feed i).state ≠ .closed) (leg : Leg) (st : Stamp) :
    (s.updateLeg i leg st).FeedsSound := by
  have active : ∀ d, (s.setFeed i ((s.feed i).setLeg leg { state := .active, deadline := some d })).FeedsSound := by
    intro d
    obtain ⟨-, -, hhold, -, -⟩ := setLeg_state (s.feed i) leg { state := .active, deadline := some d }
    exact h.setFeed i ((h.feed i).setLeg ho leg (LegWatch.live_of_deadline (.inr rfl) d)) (by rw [hhold])
  unfold State.updateLeg
  simp only
  split
  · exact active _
  · exact (active _).congr rfl

/-- An arrival of an open feed, counted and arbitrated, keeps the feeds sound and leaves its feed RUNNING (R63 to R65). -/
theorem State.FeedsSound.takeArrival {s : State} (h : s.FeedsSound) (i : FeedId) (a : Arrival) (ho : (s.feed i).state ≠ .closed) :
    (s.takeArrival i a).FeedsSound := by
  have hu := (h.updateLeg i ho a.copy.leg a.copy.stamp).count i (countCopy a.copy.leg)
  have hst : (((s.updateLeg i a.copy.leg a.copy.stamp).count i (countCopy a.copy.leg)).feed i).state = (s.feed i).state := by
    simp [State.count, state_updateLeg]
  unfold State.takeArrival
  simp only
  generalize (s.updateLeg i a.copy.leg a.copy.stamp).count i (countCopy a.copy.leg) = u at hu hst
  have hou : (u.feed i).state ≠ .closed := by rw [hst]; exact ho
  split
  · exact hu
  · obtain ⟨bounded, running⟩ := KeepsBounds.firstArrival i a u
    exact hu.of_bounded (.firstArrival i a u) bounded hou running
  · rename_i e he
    have bounded := KeepsBounds.arbitrate i e a u
    exact hu.of_bounded (.arbitrate i e a u) bounded hou (bounded.running ⟨e, he⟩)

theorem State.FeedsSound.handOver {s : State} (h : s.FeedsSound) : s.handOver.FeedsSound := by
  have hfree : s.freeClassifier.FeedsSound := h.congr rfl
  cases hm : s.classifier.held with
  | none => rw [State.handOver_none hm]; exact h
  | some m =>
    by_cases hs : (s.feed m.feed).state = .closed
    · rw [State.handOver_closed hm hs]; exact hfree.count _ _
    · rw [State.handOver_open hm hs]
      unfold State.extractAndTake
      split
      · exact hfree.congr rfl
      · exact hfree.takeArrival _ _ hs

/-! ## Requests (R50 to R52) -/

theorem State.FeedsSound.configureFeed {s : State} (h : s.FeedsSound) (p : List Byte) : (ownConfigureFeed p s).1.FeedsSound := by
  cases hn : feedNamed p with
  | none => rw [ownConfigureFeed_no_feed hn]; exact h
  | some i =>
    by_cases hs : (s.feed i).state = .closed
    · cases hc : Profile.parse p with
      | none => rw [ownConfigureFeed_out_of_range hn hs hc]; exact h
      | some c =>
        obtain ⟨hidle, hshut, hlive, hg⟩ := h.feed i
        rw [ownConfigureFeed_taken hn hs hc]
        exact h.setFeed i ⟨hidle, hshut, hlive, hg⟩ le_rfl
    · rw [ownConfigureFeed_open hn hs]; exact h

theorem State.FeedsSound.openFeed {s : State} (h : s.FeedsSound) (p : List Byte) : (ownOpenFeed p s).1.FeedsSound := by
  cases hn : feedNamed p with
  | none => rw [ownOpenFeed_no_feed hn]; exact h
  | some i =>
    by_cases hs : (s.feed i).state = .closed
    · rw [ownOpenFeed_closed hn hs]
      exact h.setFeed i ((h.feed i).arm hs s.now) le_rfl
    · rw [ownOpenFeed_open hn hs]; exact h

theorem State.FeedsSound.closeFeed {s : State} (h : s.FeedsSound) (p : List Byte) : (ownCloseFeed p s).1.FeedsSound := by
  cases hn : feedNamed p with
  | none => rw [ownCloseFeed_no_feed hn]; exact h
  | some i =>
    by_cases hs : (s.feed i).state = .closed
    · rw [ownCloseFeed_closed hn hs]; exact h
    · rw [ownCloseFeed_open hn hs, State.closeFeed_eq]
      exact (h.congr (State.feeds_offerAll _ s)).setFeed i (s.feed i).closed_sound (Nat.zero_le _)

/-! ## O57 -/

/-- The events of a feed and the resets keep the feeds sound. -/
theorem State.FeedsSound.feedEvents : FeedEventsKeep State.FeedsSound where
  congr _ _ e h := h.congr e
  handOver _ h := h.handOver
  expirePairing i s h := h.of_expiry (.expirePairing i s) (.expirePairing i s) fun hh _ _ => State.expirePairing_none hh
  expireGaps i s h := h.of_expiry (.expireGaps i s) (.expireGaps i s) fun _ hg _ => State.expireGaps_none hg
  expireCandidate i s h := h.of_expiry (.expireCandidate i s) (.expireCandidate i s) fun _ _ hc => State.expireCandidate_none hc
  expireSilence i leg _ h := h.expireSilence i leg
  configureFeed p _ h := h.configureFeed p
  openFeed p _ h := h.openFeed p
  closeFeed p _ h := h.closeFeed p
  fresh := State.fresh_feedsSound

/-- Settles O57: every event of a feed overdraws neither the pool nor the gap list, and leaves the feed the parts of its state. -/
theorem stepKeepsFeedsSound : Obligations.StepKeepsFeedsSound :=
  fun _ _ h e => State.FeedsSound.feedEvents.events.step h e

end Sys2Proof.Machine
end

section
/-! SUPPORT. Arrivals that create a record: the pool, the first arrival, the places an unseen number can take, and the aging after a change of E
(R64, R67, R75 to R79, R86 to R88, R94): O17 to O21, and the candidate of O24. -/

namespace Sys2Proof.Machine

/-! ## The free count (R92) -/

theorem State.freeCount_congr {s t : State} (h : t.feeds = s.feeds) : t.freeCount = s.freeCount := by
  unfold State.freeCount; rw [h]

/-- The free count moves with the lengths of the hold lists alone. -/
theorem State.freeCount_onFeed {s : State} {i : FeedId} {g : Feed → Feed} (h : (g (s.feed i)).hold.length = (s.feed i).hold.length) :
    (s.onFeed i g).freeCount = s.freeCount := by
  have hc := s.heldCount_setFeed i (g (s.feed i))
  have he : heldCount (s.setFeed i (g (s.feed i))).feeds.toList = heldCount s.feeds.toList := by omega
  unfold State.freeCount State.onFeed
  rw [he]

/-! ## A record released in place of being held (R94) -/

/-- A bypass is one offer and one change of the counters. -/
theorem State.bypass_eq (i : FeedId) (h : HeldRecord) (s : State) :
    s.bypass i h = (s.offer (arrivalRecord i (s.feed i).profile.sendFormat .notHeld h)).onFeed i fun f =>
      { f with counters := .released [h] { f.counters with notHeld := f.counters.notHeld + 1 } } := by
  have hp : ((s.count i fun c => { c with notHeld := c.notHeld + 1 }).feed i).profile = (s.feed i).profile := by simp [State.count]
  unfold State.bypass State.release
  rw [hp]
  simp only [State.count, State.onFeed_offer, State.onFeed_onFeed, FeedCounters.released_cons, FeedCounters.released_nil]

/-! ## A record created (R67, R94) -/

theorem State.create_held {s : State} (hfree : 0 < s.freeCount) (i : FeedId) (a : Arrival) (late : Bool) :
    s.create i a late = s.onFeed i fun f => { f with
      hold := f.hold ++ [recordOf a late (s.pairingDeadline i)]
      counters := { f.counters with firstCopies := f.counters.firstCopies + 1 } } := by
  have hcount : (s.count i fun c => { c with firstCopies := c.firstCopies + 1 }).freeCount = s.freeCount := State.freeCount_onFeed rfl
  unfold State.create
  simp only
  rw [if_neg (by omega)]
  simp only [State.count, State.setHold, State.onFeed_onFeed]
  exact State.onFeed_congr (by simp)

theorem State.create_bypassed {s : State} (hfull : s.freeCount = 0) (i : FeedId) (a : Arrival) (late : Bool) :
    s.create i a late =
      (s.offer (arrivalRecord i (s.feed i).profile.sendFormat .notHeld (recordOf a late (s.pairingDeadline i)))).onFeed i fun f => { f with
        counters := .released [recordOf a late (s.pairingDeadline i)]
          { f.counters with firstCopies := f.counters.firstCopies + 1, notHeld := f.counters.notHeld + 1 } } := by
  have hcount : (s.count i fun c => { c with firstCopies := c.firstCopies + 1 }).freeCount = s.freeCount := State.freeCount_onFeed rfl
  unfold State.create
  simp only
  rw [if_pos (hcount.trans hfull), State.bypass_eq]
  simp only [State.count, State.onFeed_offer, State.onFeed_onFeed, State.feed_onFeed]

/-- Settles O17: a pool with a free entry, and an empty one. -/
theorem createdRecordIsHeldOrBypasses : Obligations.CreatedRecordIsHeldOrBypasses := by
  rintro s i a late h rfl
  exact ⟨fun hfree => s.create_held hfree i a late, fun hfull => s.create_bypassed hfull i a late⟩

/-! ## The first arrival (R64, R86, R87) -/

theorem create_gaps (i : FeedId) (a : Arrival) (late : Bool) (s : State) : ((s.create i a late).feed i).gaps = (s.feed i).gaps := by
  rcases Nat.eq_zero_or_pos s.freeCount with hfull | hfree
  · rw [State.create_bypassed hfull]; simp
  · rw [State.create_held hfree]; simp

/-- A creation puts no number but the arrival's on the hold list. -/
theorem number_of_mem_create {i : FeedId} {a : Arrival} {late : Bool} {s : State} (hempty : (s.feed i).hold = []) :
    ∀ x ∈ ((s.create i a late).feed i).hold, x.number = a.number := by
  rcases Nat.eq_zero_or_pos s.freeCount with hfull | hfree
  · rw [State.create_bypassed hfull]; simp [hempty]
  · rw [State.create_held hfree]; simp [hempty, recordOf]

/-- The number just before E is not aged. -/
theorem isAged_succ (n : SeqNum) : isAged (n + 1) n = false := by
  have hd : (n - (n + 1)).toNat = 2 ^ 32 - 1 := by bv_omega
  unfold isAged
  rw [behind_some (by omega), hd]
  rfl

/-- With both lists empty the aging after a first arrival finds nothing (R86, R87). -/
theorem State.firstArrival_of_empty {s : State} {i : FeedId} (a : Arrival) (hhold : (s.feed i).hold = []) (hgaps : (s.feed i).gaps = []) :
    s.firstArrival i a = (s.create i a false).setFeedState i (.running (a.number + 1)) := by
  have hg : (((s.create i a false).setFeedState i (.running (a.number + 1))).feed i).gaps = [] := by
    simp [State.setFeedState, create_gaps, hgaps]
  have hh : ∀ x ∈ (((s.create i a false).setFeedState i (.running (a.number + 1))).feed i).hold, isAged (a.number + 1) x.number = false := by
    intro x hx
    have hx' : x ∈ ((s.create i a false).feed i).hold := by simpa [State.setFeedState] using hx
    rw [number_of_mem_create hhold x hx']
    exact isAged_succ a.number
  unfold State.firstArrival
  rw [ageGaps_none hg, ageHeld_none hh]

/-- Settles O18: an ARMED feed's lists are empty, so that nothing ages. -/
theorem firstArrivalStartsFeed : Obligations.FirstArrivalStartsFeed := by
  intro s m a h hs hhold hgaps
  obtain ⟨-, -, ehold, egaps, -⟩ := heard_fields s m a
  rw [exec_handOver h (by rw [hs]; exact FeedState.noConfusion), hs]
  simp only
  rw [State.firstArrival_of_empty a (ehold.trans hhold) (egaps.trans hgaps)]
  rfl

/-! ## The distance from E (R75) -/

theorem beyond_behind {limit : Nat} {e n : SeqNum} (h : 2 ^ 31 ≤ (n - e).toNat) :
    beyond limit e n = decide (limit < 2 ^ 32 - (n - e).toNat) := by
  unfold beyond; rw [behind_some h]

theorem beyond_ahead {limit : Nat} {e n : SeqNum} (h : (n - e).toNat < 2 ^ 31) : beyond limit e n = decide (limit < (n - e).toNat) := by
  unfold beyond; rw [behind_none h]; rfl

theorem ne_of_distance {e n : SeqNum} (h : 1 ≤ (n - e).toNat) : n ≠ e := by
  rintro rfl; simp at h

section
variable {s : State} {i : FeedId} {a : Arrival} {e : SeqNum}

theorem State.place_inOrder : s.place i a.number a = s.inOrder i a := if_pos rfl

theorem State.place_beyond (hne : a.number ≠ e) (hb : beyond (s.feed i).profile.jumpLimit e a.number = true) :
    s.place i e a = s.becomeCandidate i a := by
  unfold State.place; rw [if_neg hne, if_pos hb]

theorem State.place_late (hd : 2 ^ 31 ≤ (a.number - e).toNat) (hl : 2 ^ 32 - (a.number - e).toNat ≤ (s.feed i).profile.jumpLimit) :
    s.place i e a = s.lateCopy i := by
  have hb : ¬ beyond (s.feed i).profile.jumpLimit e a.number = true := by rw [beyond_behind hd]; simpa using hl
  unfold State.place
  rw [if_neg (ne_of_distance (by omega)), if_neg hb, behind_some hd]

theorem State.place_ahead (hpos : 1 ≤ (a.number - e).toNat) (hd : (a.number - e).toNat < 2 ^ 31)
    (hl : (a.number - e).toNat ≤ (s.feed i).profile.jumpLimit) : s.place i e a = s.ahead i e a := by
  have hb : ¬ beyond (s.feed i).profile.jumpLimit e a.number = true := by rw [beyond_ahead hd]; simpa using hl
  unfold State.place
  rw [if_neg (ne_of_distance hpos), if_neg hb, behind_none hd]

end

/-- A number that no check decides is placed by its distance from E (R65, R75). -/
theorem handOver_unseen {s : State} {m : Matched} {a : Arrival} {e : SeqNum} (h : s.HandsOver m a)
    (hs : (s.feed m.feed).state = .running e) (hu : (s.feed m.feed).Unseen a.number) :
    exec .handOver s = .next ((s.heard m a).place m.feed e a) := by
  rw [running_handOver h hs, arb_unseen (unseen_heard hu)]

/-- Settles O19: the number E itself, and one behind it within L. -/
theorem inOrderAndLateArrivals : Obligations.InOrderAndLateArrivals := by
  refine ⟨fun s m a h hs hu => ?_, fun s m a e h hs hu hd hl => ?_⟩
  · rw [handOver_unseen h hs hu, State.place_inOrder]; rfl
  · obtain ⟨-, eprofile, -, -, -⟩ := heard_fields s m a
    rw [handOver_unseen h hs hu, State.place_late hd (by rw [eprofile]; exact hl)]; rfl

/-- Settles O20: a range is opened behind fewer than four, and behind four once the oldest is declared. -/
theorem aheadArrivalOpensGap : Obligations.AheadArrivalOpensGap := by
  rintro s m a e g h hs hu hpos hd hl rfl
  obtain ⟨-, eprofile, -, egaps, -⟩ := heard_fields s m a
  obtain ⟨enow, ereading⟩ := now_heard s m a
  rw [handOver_unseen h hs hu, State.place_ahead hpos hd (by rw [eprofile]; exact hl), State.ahead]
  refine ⟨fun hroom => ?_, fun oldest rest hgaps hfull => ?_⟩
  · rw [openGap_lt (by rw [egaps]; exact hroom), enow, eprofile]; rfl
  · rw [openGap_full (egaps.trans hgaps) (by rw [egaps]; exact hfull), enow, eprofile, ereading]; rfl

/-! ## The aging (R86 to R88, R100) -/

/-- A part of a hold list released, the rest staying: one offer of its records and one change of the feed. -/
theorem State.setHold_releaseAll (i : FeedId) (st : TwinStatus) (out rest : List HeldRecord) (s : State) :
    (s.setHold i rest).releaseAll i (out.map fun h => (statusOr st h, h)) =
      (s.offerAll (releaseRecords i (s.feed i).profile.sendFormat st out)).onFeed i fun f =>
        { f with hold := rest, counters := f.counters.released out } := by
  have hp : ((s.setHold i rest).feed i).profile = (s.feed i).profile := by simp [State.setHold]
  rw [State.releaseAll_eq, releaseRecords_eq, map_snd_status, hp, State.setHold, State.onFeed_offerAll, State.onFeed_onFeed]

theorem State.ageGaps_eq (i : FeedId) (e : SeqNum) (s : State) :
    s.ageGaps i e = (s.offerAll (gapRecords i .aged s.reading ((s.feed i).gaps.filter fun g => isAged e g.first))).onFeed i fun f =>
      { f with gaps := f.gaps.filter fun g => !isAged e g.first
               counters := f.counters.declared (f.gaps.filter fun g => isAged e g.first) } := by
  have hr : ∀ l, (s.setGaps i l).reading = s.reading := fun _ => rfl
  rw [State.ageGaps, State.declareAll_eq, hr, State.setGaps, State.onFeed_offerAll, State.onFeed_onFeed]
  exact State.onFeed_congr (by rw [State.feed_offerAll])

/-- What R87 releases of a hold list, and what the chain of R100 releases after it. -/
theorem State.ageHeld_eq {s : State} {i : FeedId} {e : SeqNum} {aged kept chained rest : List HeldRecord}
    (hsplit : (s.feed i).hold = aged ++ kept) (hkept : ∀ h ∈ kept, isAged e h.number = false)
    (haged : ∀ h, aged.getLast? = some h → isAged e h.number = true)
    (hchain : if aged = [] then chained = [] ∧ rest = kept else ChainsTo s.now kept chained rest) :
    s.ageHeld i e = (s.offerAll (releaseRecords i (s.feed i).profile.sendFormat .aged aged ++
        releaseRecords i (s.feed i).profile.sendFormat .timeout chained)).onFeed i fun f =>
      { f with hold := rest, counters := f.counters.released (aged ++ chained) } := by
  cases aged with
  | nil =>
    obtain ⟨rfl, rfl⟩ := (if_pos rfl).mp hchain
    rw [ageHeld_none (by rw [hsplit]; exact hkept)]
    conv_lhs => rw [← State.onFeed_id s i]
    exact State.onFeed_congr (by simp [FeedCounters.released_nil, ← show (s.feed i).hold = rest from hsplit])
  | cons x xs =>
    rw [if_neg (List.cons_ne_nil x xs)] at hchain
    have hpart : agedPart e (s.feed i).hold = x :: xs := by rw [hsplit]; exact agedPart_eq hkept haged
    have hdrop : (s.feed i).hold.drop (x :: xs).length = kept := by rw [hsplit, List.drop_left]
    unfold State.ageHeld
    rw [hpart]
    simp only [List.isEmpty_cons, Bool.false_eq_true, if_false]
    rw [hdrop, State.setHold_releaseAll,
      State.chain_eq (out := chained) (rest := rest) (by simpa [State.now, State.time_offerAll] using hchain)]
    simp only [State.feed_onFeed, State.feed_offerAll, State.onFeed_offerAll, State.onFeed_onFeed, State.offerAll_append,
      FeedCounters.released_append]

/-- Settles O21: the three parts of the aging, each as its records and one change of the feed. -/
theorem agingReleasesWhatLiesFarBehind : Obligations.AgingReleasesWhatLiesFarBehind := by
  intro s i e aged kept chained rest hsplit hkept haged hchain
  refine ⟨_, rfl, ?_⟩
  have hhold : ((s.ageGaps i e).feed i).hold = (s.feed i).hold := by rw [State.ageGaps_eq]; simp [State.feed_offerAll]
  have hprofile : ((s.ageGaps i e).feed i).profile = (s.feed i).profile := by rw [State.ageGaps_eq]; simp [State.feed_offerAll]
  have hnow : (s.ageGaps i e).now = s.now := (Acts.ageGaps i e s).now
  rw [State.age, State.ageHeld_eq (hhold.trans hsplit) hkept haged (by rw [hnow]; exact hchain), ageCandidate_eq, hprofile,
    State.ageGaps_eq]
  simp only [State.onFeed_offerAll, State.onFeed_onFeed, State.offerAll_append]
  rfl

/-! ## The candidate (R68, R69, R79) -/

/-- A slot that is filled, or filled anew, is one change of the feed (R79). -/
theorem State.becomeCandidate_eq (i : FeedId) (a : Arrival) (s : State) :
    s.becomeCandidate i a = s.onFeed i fun f => { f with
      candidate := some (recordOf a false (s.pairingDeadline i))
      counters := { f.counters with strays := f.counters.strays + if f.candidate.isSome then 1 else 0 } } := by
  unfold State.becomeCandidate
  cases hc : (s.feed i).candidate with
  | none => exact State.onFeed_congr (by simp [hc])
  | some c =>
    simp only
    rw [State.dropCandidate_eq, State.setCandidate, State.onFeed_onFeed]
    exact State.onFeed_congr (by rw [hc]; rfl)

/-- Check 1 (R68): a copy of the candidate's own number meets it. -/
theorem handOver_candidate {s : State} {m : Matched} {a : Arrival} {e : SeqNum} {c : HeldRecord} (h : s.HandsOver m a)
    (hs : (s.feed m.feed).state = .running e) (hc : (s.feed m.feed).candidate = some c) (hn : c.number = a.number) :
    exec .handOver s = .next ((s.heard m a).meetCandidate m.feed c a) := by
  obtain ⟨-, -, -, -, ecandidate⟩ := heard_fields s m a
  rw [running_handOver h hs]
  unfold State.arbitrate
  rw [ecandidate, hc]
  simp only [if_pos hn]

theorem HeldRecord.wantsTwin_iff (h : HeldRecord) (c : FrameCopy) : h.wantsTwin c = true ↔ h.twin = none ∧ h.first.leg ≠ c.leg := by
  simp [HeldRecord.wantsTwin]

theorem HeldRecord.not_wantsTwin {h : HeldRecord} {c : FrameCopy} (hr : h.twin ≠ none ∨ h.first.leg = c.leg) : ¬ h.wantsTwin c = true := by
  rw [HeldRecord.wantsTwin_iff]
  rintro ⟨htwin, hleg⟩
  exact hr.elim (· htwin) hleg

/-- The copy that a record wants as its twin is attached, and counted as a twin (R68). -/
theorem HeldRecord.meet_twin {h : HeldRecord} {c : FrameCopy} (hw : h.wantsTwin c = true) :
    h.meet c = h.attach c ∧ countMeet h c = fun k => { k with twins := k.twins + 1 } :=
  ⟨if_pos hw, funext fun _ => if_pos hw⟩

/-- Any other copy is noted, and counted as a repeat (R69). -/
theorem HeldRecord.meet_repeat {h : HeldRecord} {c : FrameCopy} (hw : ¬ h.wantsTwin c = true) :
    h.meet c = h.noteRepeat c ∧ countMeet h c = fun k => { k with repeats := k.repeats + 1 } :=
  ⟨if_neg hw, funext fun _ => if_neg hw⟩

theorem State.meetCandidate_eq (i : FeedId) (c : HeldRecord) (a : Arrival) (s : State) :
    s.meetCandidate i c a = s.onFeed i fun f =>
      { f with candidate := some (c.meet a.copy), counters := countMeet c a.copy f.counters } := by
  unfold State.meetCandidate State.setCandidate State.count; rw [State.onFeed_onFeed]

/-- Settles O24: a number beyond L that no check decides, and the candidate's own number, as its twin and as a repeat. -/
theorem candidateIsTakenAndMet : Obligations.CandidateIsTakenAndMet := by
  intro s m a e h hs
  refine ⟨fun hu hne hb => ?_, fun c hc hn => ⟨fun htwin hleg => ?_, fun hr => ?_⟩⟩
  · obtain ⟨-, eprofile, -, -, -⟩ := heard_fields s m a
    rw [handOver_unseen h hs hu, State.place_beyond hne (by rw [eprofile]; exact hb), State.becomeCandidate_eq, State.pairingDeadline,
      (now_heard s m a).1, eprofile]
  · obtain ⟨hmeet, hcount⟩ := HeldRecord.meet_twin ((c.wantsTwin_iff a.copy).mpr ⟨htwin, hleg⟩)
    rw [handOver_candidate h hs hc hn, State.meetCandidate_eq, hmeet, hcount]
  · obtain ⟨hmeet, hcount⟩ := HeldRecord.meet_repeat (HeldRecord.not_wantsTwin hr)
    rw [handOver_candidate h hs hc hn, State.meetCandidate_eq, hmeet, hcount]
    rfl

end Sys2Proof.Machine
end

section
/-! SUPPORT. Copies of a held number and late fills, checks 2 and 3 (R65, R68 to R71, R73, R74, R98, R100, R106 to R108): O22 and O23. -/

namespace Sys2Proof.Machine

/-! ## The checks behind the candidate's own number (R65) -/

/-- A copy of another number than the candidate's comes to check 2 (R65). -/
theorem handOver_checkLists {s : State} {m : Matched} {a : Arrival} {e : SeqNum} (h : s.HandsOver m a)
    (hs : (s.feed m.feed).state = .running e) (hc : ∀ c, (s.feed m.feed).candidate = some c → c.number ≠ a.number) :
    exec .handOver s = .next ((s.heard m a).checkLists m.feed e a) := by
  obtain ⟨-, -, -, -, ecandidate⟩ := heard_fields s m a
  rw [running_handOver h hs]
  unfold State.arbitrate
  rw [ecandidate]
  cases hcand : (s.feed m.feed).candidate with
  | none => rfl
  | some c => simp only [if_neg (hc c hcand)]

theorem find_number_none {n : SeqNum} {hold : List HeldRecord} (h : ∀ x ∈ hold, x.number ≠ n) :
    hold.find? (fun x => x.number == n) = none := by simpa using h

theorem find_number_some {n : SeqNum} {before behind : List HeldRecord} {h : HeldRecord} (hn : h.number = n)
    (hb : ∀ x ∈ before, x.number ≠ n) : (before ++ h :: behind).find? (fun x => x.number == n) = some h := by
  rw [List.find?_append, find_number_none hb, Option.none_or, List.find?_cons_of_pos (by simpa using hn)]

section
variable {s : State} {i : FeedId} {e : SeqNum} {a : Arrival}

/-- Check 2 finds the record of the copy's number (R68). -/
theorem State.checkLists_held {before behind : List HeldRecord} {h : HeldRecord} (hhold : (s.feed i).hold = before ++ h :: behind)
    (hn : h.number = a.number) (hb : ∀ x ∈ before, x.number ≠ a.number) : s.checkLists i e a = s.meetHeld i h a := by
  unfold State.checkLists; rw [hhold, find_number_some hn hb]

/-- Check 3 finds a range that holds the copy's number (R74). -/
theorem State.checkLists_missing {g : GapRange} (hh : ∀ h ∈ (s.feed i).hold, h.number ≠ a.number) (hmem : g ∈ (s.feed i).gaps)
    (hg : g.holds a.number = true) : s.checkLists i e a = s.lateFill i a := by
  unfold State.checkLists
  rw [find_number_none hh]
  exact if_pos (List.any_eq_true.mpr ⟨g, hmem, hg⟩)

/-- Neither list knows the copy's number (R65). -/
theorem State.checkLists_unlisted (hh : ∀ h ∈ (s.feed i).hold, h.number ≠ a.number) (hg : ∀ g ∈ (s.feed i).gaps, g.holds a.number = false) :
    s.checkLists i e a = s.confirmOrPlace i e a := by
  unfold State.checkLists
  rw [find_number_none hh]
  exact if_neg (by simpa using hg)

end

/-! ## The copy of a held number (R68, R69, R98, R100) -/

theorem replaceHeld_append {n : SeqNum} {before behind : List HeldRecord} {h : HeldRecord} (h' : HeldRecord) (hn : h.number = n)
    (hb : ∀ x ∈ before, x.number ≠ n) : replaceHeld n h' (before ++ h :: behind) = before ++ h' :: behind := by
  induction before with
  | nil => exact if_pos hn
  | cons x xs ih =>
    rw [List.cons_append, replaceHeld, if_neg (hb x List.mem_cons_self), ih fun y hy => hb y (List.mem_cons_of_mem x hy), List.cons_append]

theorem Feed.headIs_cons {f : Feed} {n : SeqNum} {h : HeldRecord} {behind : List HeldRecord} (hf : f.hold = h :: behind) :
    f.headIs n = true ↔ h.number = n := by
  unfold Feed.headIs; rw [hf]; simp

theorem HeldRecord.attach_twin (h : HeldRecord) (c : FrameCopy) : (h.attach c).twin.isSome = true := by
  unfold HeldRecord.attach; simp only; split <;> rfl

/-- A record that goes, in front of a chain. -/
theorem ChainsTo.cons {now : LocalCount} {hold out rest : List HeldRecord} {x : HeldRecord} (h : ChainsTo now hold out rest)
    (hx : x.twin.isSome = true ∨ reached x.deadline now = true) : ChainsTo now (x :: hold) (x :: out) rest :=
  ⟨by rw [h.split, List.cons_append], List.forall_mem_cons.mpr ⟨hx, h.goes⟩, h.stays⟩

section
variable {s : State} {i : FeedId} {a : Arrival} {before behind : List HeldRecord} {h : HeldRecord}

/-- The record changed in its place, and the copy counted: what check 2 does before a release (R68, R69). -/
theorem State.setHold_meet (hhold : (s.feed i).hold = before ++ h :: behind) (hn : h.number = a.number)
    (hb : ∀ x ∈ before, x.number ≠ a.number) :
    (s.setHold i (replaceHeld a.number (h.meet a.copy) (s.feed i).hold)).count i (countMeet h a.copy) = s.onFeed i fun f =>
      { f with hold := before ++ h.meet a.copy :: behind, counters := countMeet h a.copy f.counters } := by
  rw [hhold, replaceHeld_append _ hn hb, State.setHold, State.count, State.onFeed_onFeed]

/-- A twin of the head releases it, and the chain follows (R98, R100). -/
theorem State.meetHeld_head {out rest : List HeldRecord} (hhold : (s.feed i).hold = h :: behind) (hn : h.number = a.number)
    (hw : h.wantsTwin a.copy = true) (hchain : ChainsTo s.now behind out rest) :
    s.meetHeld i h a =
      (s.offerAll (releaseRecords i (s.feed i).profile.sendFormat .timeout (h.attach a.copy :: out))).onFeed i fun f =>
        { f with hold := rest, counters := .released (h.attach a.copy :: out) { f.counters with twins := f.counters.twins + 1 } } := by
  obtain ⟨hmeet, hcount⟩ := HeldRecord.meet_twin hw
  unfold State.meetHeld
  simp only
  rw [State.setHold_meet (before := []) hhold hn (by simp), if_pos ⟨hw, (Feed.headIs_cons hhold).mpr hn⟩, hmeet, hcount,
    State.chain_eq (out := h.attach a.copy :: out) (rest := rest) (by
      simpa [State.now] using hchain.cons (.inl (h.attach_twin a.copy)))]
  simp only [State.feed_onFeed, State.onFeed_offerAll, State.onFeed_onFeed]

/-- Any other copy of a held number changes its record and nothing more. -/
theorem State.meetHeld_stays (hhold : (s.feed i).hold = before ++ h :: behind) (hn : h.number = a.number)
    (hb : ∀ x ∈ before, x.number ≠ a.number) (hstay : ¬ h.wantsTwin a.copy = true ∨ before ≠ []) :
    s.meetHeld i h a = s.onFeed i fun f =>
      { f with hold := before ++ h.meet a.copy :: behind, counters := countMeet h a.copy f.counters } := by
  have hno : ¬ (h.wantsTwin a.copy = true ∧ (s.feed i).headIs a.number = true) := by
    rintro ⟨hw, hhead⟩
    cases before with
    | nil => exact hstay.elim (· hw) (· rfl)
    | cons x xs => exact hb x List.mem_cons_self ((Feed.headIs_cons hhold).mp hhead)
  unfold State.meetHeld
  simp only
  rw [if_neg hno, State.setHold_meet hhold hn hb]

end

/-! ## The first of two copies (R70) -/

theorem laterEpoch_iff (e1 e2 : Epoch) : laterEpoch e1 e2 = true ↔ 1 ≤ (e2 - e1).toNat ∧ (e2 - e1).toNat < 2 ^ 15 := decide_eq_true_iff

section
variable {held arriving : FrameCopy}

theorem arrivesFirst_same_time (he : held.stamp.epoch = arriving.stamp.epoch)
    (ht : held.stamp.value.toQuarters = arriving.stamp.value.toQuarters) : arrivesFirst held arriving = (arriving.leg == .a) := by
  unfold arrivesFirst; rw [if_pos he, if_pos ht]

theorem arrivesFirst_same_epoch (he : held.stamp.epoch = arriving.stamp.epoch)
    (ht : held.stamp.value.toQuarters ≠ arriving.stamp.value.toQuarters) :
    arrivesFirst held arriving = decide (arriving.stamp.value.toQuarters < held.stamp.value.toQuarters) := by
  unfold arrivesFirst; rw [if_pos he, if_neg ht]

theorem arrivesFirst_later (h : laterEpoch held.stamp.epoch arriving.stamp.epoch = true) (he : held.stamp.epoch ≠ arriving.stamp.epoch) :
    arrivesFirst held arriving = false := by
  unfold arrivesFirst; rw [if_neg he, if_pos h]

theorem arrivesFirst_earlier (h : laterEpoch arriving.stamp.epoch held.stamp.epoch = true) (he : held.stamp.epoch ≠ arriving.stamp.epoch)
    (hn : ¬ laterEpoch held.stamp.epoch arriving.stamp.epoch = true) : arrivesFirst held arriving = true := by
  unfold arrivesFirst; rw [if_neg he, if_neg hn, if_pos h]

theorem arrivesFirst_opposite (he : held.stamp.epoch ≠ arriving.stamp.epoch)
    (hn : ¬ laterEpoch held.stamp.epoch arriving.stamp.epoch = true) (hn' : ¬ laterEpoch arriving.stamp.epoch held.stamp.epoch = true) :
    arrivesFirst held arriving = (arriving.leg == .a) := by
  unfold arrivesFirst; rw [if_neg he, if_neg hn, if_neg hn']

end

theorem epoch_ne_of_distance {e1 e2 : Epoch} (h : 1 ≤ (e2 - e1).toNat) : e1 ≠ e2 := by
  rintro rfl; simp at h

/-- The distances of two epochs from each other add up to 2^16. -/
theorem epoch_distance_back {e1 e2 : Epoch} (h : 1 ≤ (e2 - e1).toNat) : (e1 - e2).toNat = 2 ^ 16 - (e2 - e1).toNat := by bv_omega

/-- Settles O22: the twin of the head, a twin behind the head and a repeat; and R70's order, by the epochs' distance. -/
theorem copyOfHeldNumber : Obligations.CopyOfHeldNumber := by
  refine ⟨fun s m a e before behind h h' ho hs hc hhold hn hb => ?_, fun held arriving _ => ?_⟩
  · obtain ⟨-, eprofile, ehold, -, -⟩ := heard_fields s m a
    have hhold' := ehold.trans hhold
    rw [handOver_checkLists ho hs hc, State.checkLists_held hhold' hn hb]
    refine ⟨fun htwin hleg hdef => ?_, fun hr hdef => ?_⟩
    · have hw := (h.wantsTwin_iff a.copy).mpr ⟨htwin, hleg⟩
      obtain ⟨hmeet, hcount⟩ := HeldRecord.meet_twin hw
      obtain rfl : h' = h.attach a.copy := hdef
      refine ⟨fun hne => ?_, fun out rest hnil hchain => ?_⟩
      · rw [State.meetHeld_stays hhold' hn hb (.inr hne), hmeet, hcount]
      · subst hnil
        rw [State.meetHeld_head hhold' hn hw (by rw [(now_heard s m a).1]; exact hchain), eprofile]
    · have hw := HeldRecord.not_wantsTwin hr
      obtain ⟨hmeet, hcount⟩ := HeldRecord.meet_repeat hw
      obtain rfl : h' = h.noteRepeat a.copy := hdef
      rw [State.meetHeld_stays hhold' hn hb (.inl hw), hmeet, hcount]
  · refine ⟨fun he ht => ?_, fun he ht => ?_, fun he ht => ?_, fun hpos hlt => ?_, fun hgt => ?_, fun heq => ?_⟩
    · rw [arrivesFirst_same_epoch he (by omega)]; exact decide_eq_false (by omega)
    · rw [arrivesFirst_same_epoch he (by omega)]; exact decide_eq_true ht
    · rw [arrivesFirst_same_time he ht.symm, beq_iff_eq]
    · exact arrivesFirst_later ((laterEpoch_iff _ _).mpr ⟨hpos, hlt⟩) (epoch_ne_of_distance hpos)
    · have hback := epoch_distance_back (e1 := held.stamp.epoch) (e2 := arriving.stamp.epoch) (by omega)
      have hlt := (arriving.stamp.epoch - held.stamp.epoch).isLt
      exact arrivesFirst_earlier ((laterEpoch_iff _ _).mpr (by omega)) (epoch_ne_of_distance (by omega))
        (by rw [laterEpoch_iff]; omega)
    · have hback := epoch_distance_back (e1 := held.stamp.epoch) (e2 := arriving.stamp.epoch) (by omega)
      rw [arrivesFirst_opposite (epoch_ne_of_distance (by omega)) (by rw [laterEpoch_iff]; omega) (by rw [laterEpoch_iff]; omega),
        beq_iff_eq]

/-! ## A number taken out of its range (R106 to R108) -/

/-- A range declared while the list is replaced: one offer and one change of the feed. -/
theorem State.setGaps_declare (i : FeedId) (gaps : List GapRange) (cause : GapCause) (g : GapRange) (s : State) :
    (s.setGaps i gaps).declare i cause g = (s.offerAll (gapRecords i cause s.reading [g])).onFeed i fun f =>
      { f with gaps := gaps, counters := .declared [g] f.counters } := by
  have hone : ∀ v : State, v.declare i cause g = v.declareAll i cause [g] := fun _ => rfl
  have hr : (s.setGaps i gaps).reading = s.reading := rfl
  rw [hone, State.declareAll_eq, hr, State.setGaps, State.onFeed_offerAll, State.onFeed_onFeed]

section
variable {s : State} {i : FeedId} {n : SeqNum} {before behind : List GapRange} {g : GapRange}

/-- The range found is the first that holds the number. -/
theorem State.removeFromGaps_found (hgaps : (s.feed i).gaps = before ++ g :: behind) (hb : ∀ x ∈ before, x.holds n = false)
    (hg : g.holds n = true) : s.removeFromGaps i n = s.takeFromGap i n before g behind := by
  have hb' : ∀ x ∈ before, (!x.holds n) = true := fun x hx => by rw [hb x hx]; rfl
  have hg' : ¬ (!g.holds n) = true := by simp [hg]
  have hdrop : (s.feed i).gaps.dropWhile (fun x => !x.holds n) = g :: behind := by
    rw [hgaps, List.dropWhile_append_of_pos hb', List.dropWhile_cons, if_neg hg']
  have htake : (s.feed i).gaps.takeWhile (fun x => !x.holds n) = before := by
    rw [hgaps, List.takeWhile_append_of_pos hb', List.takeWhile_cons, if_neg hg', List.append_nil]
  unfold State.removeFromGaps
  simp only [hdrop, htake]

theorem State.takeFromGap_closes (hf : n = g.first) (hl : n = g.last) :
    s.takeFromGap i n before g behind = s.onFeed i fun f =>
      { f with gaps := before ++ behind, counters := { f.counters with gapsFilled := f.counters.gapsFilled + 1 } } := by
  unfold State.takeFromGap
  rw [if_pos ⟨hf, hl⟩, State.setGaps, State.count, State.onFeed_onFeed]

theorem State.takeFromGap_first (hf : n = g.first) (hl : n ≠ g.last) :
    s.takeFromGap i n before g behind = s.setGaps i (before ++ g.upper n :: behind) := by
  unfold State.takeFromGap; rw [if_neg fun h => hl h.2, if_pos hf]

theorem State.takeFromGap_last (hf : n ≠ g.first) (hl : n = g.last) :
    s.takeFromGap i n before g behind = s.setGaps i (before ++ g.lower n :: behind) := by
  unfold State.takeFromGap; rw [if_neg fun h => hf h.1, if_neg hf, if_pos hl]

theorem State.takeFromGap_inside (hf : n ≠ g.first) (hl : n ≠ g.last) :
    s.takeFromGap i n before g behind = s.splitGap i n before g behind := by
  unfold State.takeFromGap; rw [if_neg fun h => hf h.1, if_neg hf, if_neg hl]

theorem State.splitGap_room (h : (before ++ g :: behind).length < 4) :
    s.splitGap i n before g behind = s.setGaps i (before ++ g.lower n :: g.upper n :: behind) := by
  rw [List.length_append, List.length_cons] at h
  unfold State.splitGap
  rw [if_pos (by simp only [Config.gapPlaces]; omega)]

/-- With no place for a split the oldest range goes: the lower piece itself when the range is the oldest (R108). -/
theorem State.splitGap_full_oldest (h : 4 ≤ (g :: behind).length) :
    s.splitGap i n [] g behind = (s.setGaps i (g.upper n :: behind)).declare i .listFull (g.lower n) := by
  rw [List.length_cons] at h
  unfold State.splitGap
  rw [if_neg (by simp only [Config.gapPlaces, List.length_nil]; omega)]

theorem State.splitGap_full {oldest : GapRange} {others : List GapRange} (h : 4 ≤ (oldest :: others ++ g :: behind).length) :
    s.splitGap i n (oldest :: others) g behind =
      (s.setGaps i (others ++ g.lower n :: g.upper n :: behind)).declare i .listFull oldest := by
  rw [List.length_append, List.length_cons (a := g)] at h
  unfold State.splitGap
  rw [if_neg (by simp only [Config.gapPlaces]; omega)]

end

/-- Settles O23: the number at both ends of its range, at one of them, and inside it with and without a place for the split. -/
theorem lateFillTakesItsNumber : Obligations.LateFillTakesItsNumber := by
  intro s m a e before behind g h hs hc hh hgaps hb hin
  obtain ⟨-, -, ehold, egaps, -⟩ := heard_fields s m a
  have hgaps' := egaps.trans hgaps
  have hg : g.holds a.number = true := decide_eq_true hin
  have hmem : g ∈ ((s.heard m a).feed m.feed).gaps := by rw [hgaps']; simp
  have htake := State.removeFromGaps_found hgaps' hb hg
  refine ⟨(s.heard m a).removeFromGaps m.feed a.number, ?_, fun hf hl => ?_, fun hf hl => ?_, fun hf hl => ?_, fun hf hl hroom => ?_,
    fun hf hl hfull hnil => ?_, fun oldest others hf hl hfull hbefore => ?_⟩
  · rw [handOver_checkLists h hs hc, State.checkLists_missing (by rw [ehold]; exact hh) hmem hg]; rfl
  · rw [htake, State.takeFromGap_closes hf hl]
  · rw [htake, State.takeFromGap_first hf hl]; rfl
  · rw [htake, State.takeFromGap_last hf hl]; rfl
  · rw [htake, State.takeFromGap_inside hf hl, State.splitGap_room (by rw [← hgaps]; exact hroom)]; rfl
  · subst hnil
    rw [htake, State.takeFromGap_inside hf hl, State.splitGap_full_oldest (by rw [hgaps] at hfull; exact hfull), State.setGaps_declare,
      (now_heard s m a).2]
    rfl
  · subst hbefore
    rw [htake, State.takeFromGap_inside hf hl, State.splitGap_full (by rw [hgaps] at hfull; exact hfull), State.setGaps_declare,
      (now_heard s m a).2]
    rfl

end Sys2Proof.Machine
end

section
/-! SUPPORT. The confirmation of a restart, check 4 (R81 to R85): O25. -/

namespace Sys2Proof.Machine

/-! ## The candidate's promotion (R83) -/

/-- The candidate as the feed's record, marked as the base of a restart (R83). -/
def HeldRecord.asBase (c : HeldRecord) : HeldRecord := { c with flags := { c.flags with restartBase := true } }

/-- The candidate's slot emptied, and its record counted as a first copy (R83). -/
def State.leaveSlot (i : FeedId) (s : State) : State :=
  s.onFeed i fun f => { f with candidate := none, counters := { f.counters with firstCopies := f.counters.firstCopies + 1 } }

theorem State.promote_eq (i : FeedId) (c : HeldRecord) (s : State) :
    s.promote i c =
      if (s.leaveSlot i).freeCount = 0 then
        if c.twin.isSome then (s.leaveSlot i).release i .paired c.asBase else (s.leaveSlot i).bypass i c.asBase
      else ((s.leaveSlot i).setHold i (((s.leaveSlot i).feed i).hold ++ [c.asBase])).chain i := by
  have hslot : (s.setCandidate i none).count i (fun k => { k with firstCopies := k.firstCopies + 1 }) = s.leaveSlot i := by
    rw [State.setCandidate, State.count, State.onFeed_onFeed]; rfl
  unfold State.promote
  simp only [hslot]
  rfl

theorem State.freeCount_leaveSlot (i : FeedId) (s : State) : (s.leaveSlot i).freeCount = s.freeCount := State.freeCount_onFeed rfl

/-- A chain finds nothing on an empty hold list (R100). -/
theorem ChainsTo.nil (now : LocalCount) : ChainsTo now [] [] [] := ⟨rfl, by simp, by simp⟩

/-- A chain stops at a head that is neither paired nor due (R100). -/
theorem ChainsTo.stop {now : LocalCount} {h : HeldRecord} (htwin : h.twin = none) (hd : reached h.deadline now = false) :
    ChainsTo now [h] [] [h] :=
  ⟨rfl, by simp, fun x hx => by obtain rfl : h = x := Option.some.inj hx; exact ⟨htwin, hd⟩⟩

/-- An ARRIVAL record offered and its winner counted, as a batch of one (R90, R102). -/
theorem State.release_eq (i : FeedId) (st : TwinStatus) (h : HeldRecord) (s : State) :
    s.release i (statusOr st h) h = (s.offerAll (releaseRecords i (s.feed i).profile.sendFormat st [h])).onFeed i fun f =>
      { f with counters := f.counters.released [h] } := by
  have hone : s.release i (statusOr st h) h = s.releaseAll i ([h].map fun x => (statusOr st x, x)) := rfl
  rw [hone, State.releaseAll_eq, releaseRecords_eq, map_snd_status]

/-- The won counters look at the first copy's leg, which a promotion keeps. -/
theorem FeedCounters.released_asBase (c : HeldRecord) (k : FeedCounters) : k.released [c.asBase] = k.released [c] := by
  rw [FeedCounters.released_cons, FeedCounters.released_cons]; rfl

section
variable {s : State} {i : FeedId} {c : HeldRecord}

/-- With a free entry the candidate becomes the head, and the chain examines it (R83, R100). -/
theorem State.promote_chained {out rest : List HeldRecord} (hhold : (s.feed i).hold = []) (hfree : 0 < s.freeCount)
    (hchain : ChainsTo s.now [c.asBase] out rest) :
    s.promote i c = ((s.leaveSlot i).offerAll (releaseRecords i (s.feed i).profile.sendFormat .timeout out)).onFeed i fun f =>
      { f with hold := rest, counters := f.counters.released out } := by
  have hslot : ((s.leaveSlot i).feed i).hold = [] := by simpa [State.leaveSlot] using hhold
  have hprofile : ((s.leaveSlot i).feed i).profile = (s.feed i).profile := by simp [State.leaveSlot]
  rw [State.promote_eq, if_neg (by rw [State.freeCount_leaveSlot]; omega), hslot, List.nil_append,
    State.chain_eq (out := out) (rest := rest) (by simpa [State.setHold, State.leaveSlot, State.now] using hchain), State.setHold,
    State.feed_onFeed, hprofile, State.onFeed_offerAll, State.onFeed_onFeed]

/-- A candidate that has its twin, or is due with an entry free for it, goes at once (R83, R100). -/
theorem State.promote_released (hhold : (s.feed i).hold = [])
    (h : c.twin ≠ none ∨ 0 < s.freeCount ∧ reached c.deadline s.now = true) :
    s.promote i c = ((s.leaveSlot i).offerAll (releaseRecords i (s.feed i).profile.sendFormat .timeout [c.asBase])).onFeed i fun f =>
      { f with counters := f.counters.released [c] } := by
  have hgoes : c.asBase.twin.isSome = true ∨ reached c.asBase.deadline s.now = true :=
    h.imp Option.isSome_iff_ne_none.mpr And.right
  rcases Nat.eq_zero_or_pos s.freeCount with hfull | hfree
  · have htwin : c.twin.isSome = true := Option.isSome_iff_ne_none.mpr (h.resolve_right fun hd => by omega)
    have hpaired : statusOr .timeout c.asBase = .paired := if_pos htwin
    have hprofile : ((s.leaveSlot i).feed i).profile = (s.feed i).profile := by simp [State.leaveSlot]
    rw [State.promote_eq, if_pos (by rw [State.freeCount_leaveSlot]; exact hfull), if_pos htwin, ← hpaired, State.release_eq, hprofile]
    simp only [FeedCounters.released_asBase]
  · rw [State.promote_chained hhold hfree ((ChainsTo.nil s.now).cons hgoes)]
    refine State.onFeed_congr ?_
    rw [FeedCounters.released_asBase, State.feed_offerAll]
    simp [State.leaveSlot, hhold]

/-- A candidate that is neither paired nor due is held (R83). -/
theorem State.promote_held (hhold : (s.feed i).hold = []) (hfree : 0 < s.freeCount) (htwin : c.twin = none)
    (hd : reached c.deadline s.now = false) : s.promote i c = (s.leaveSlot i).onFeed i fun f => { f with hold := [c.asBase] } := by
  rw [State.promote_chained hhold hfree (.stop (h := c.asBase) htwin hd)]
  simp only [FeedCounters.released_nil]
  rfl

/-- A candidate without a twin that finds no free entry bypasses the pool (R83, R94). -/
theorem State.promote_bypassed (hfull : s.freeCount = 0) (htwin : c.twin = none) :
    s.promote i c = ((s.leaveSlot i).offerAll (releaseRecords i (s.feed i).profile.sendFormat .notHeld [c.asBase])).onFeed i fun f =>
      { f with counters := .released [c] { f.counters with notHeld := f.counters.notHeld + 1 } } := by
  have hprofile : ((s.leaveSlot i).feed i).profile = (s.feed i).profile := by simp [State.leaveSlot]
  have hrecord : ∀ format, [arrivalRecord i format .notHeld c.asBase] = releaseRecords i format .notHeld [c.asBase] := by
    simp [releaseRecords, HeldRecord.asBase, htwin]
  rw [State.promote_eq, if_pos (by rw [State.freeCount_leaveSlot]; exact hfull), if_neg (by simp [htwin]), State.bypass_eq, hprofile,
    ← hrecord]
  simp only [FeedCounters.released_asBase, State.offerAll_cons, State.offerAll_nil]

end

/-! ## The six steps of a restart (R82, R85) -/

/-- The lists emptied with cause RESTART, the RESTART record offered and E moved: the steps before the candidate's promotion (R82). -/
def State.beginRestart (i : FeedId) (e : SeqNum) (c : HeldRecord) (a : Arrival) (s : State) : State :=
  (s.offerAll (releaseRecords i (s.feed i).profile.sendFormat .restart (s.feed i).hold ++
      gapRecords i .restart s.reading (s.feed i).gaps ++ [{ stamp := a.copy.stamp, body := .restart i e c.number c.first.stamp }])).onFeed i
    fun f => { f with state := .running (c.number + 1), hold := [], gaps := [], counters := .declared f.gaps (.released f.hold f.counters) }

theorem State.confirmRestart_eq (i : FeedId) (e : SeqNum) (c : HeldRecord) (a : Arrival) (s : State) :
    s.confirmRestart i e c a = ((s.beginRestart i e c a).promote i c).count i fun k => { k with restarts := k.restarts + 1 } := by
  have hgaps : ((s.flushHold i .restart).feed i).gaps = (s.feed i).gaps := by rw [State.flushHold_eq]; simp [State.feed_offerAll]
  have hreading : (s.flushHold i .restart).reading = s.reading := (Acts.flushHold i .restart s).reading
  have hbegin : (((s.flushHold i .restart).flushGaps i .restart).offer
      { stamp := a.copy.stamp, body := .restart i e c.number c.first.stamp }).setFeedState i (.running (c.number + 1)) =
        s.beginRestart i e c a := by
    rw [State.flushGaps_eq i .restart (s.flushHold i .restart), hgaps, hreading, State.flushHold_eq, State.beginRestart,
      State.offerAll_append, State.offerAll_append]
    simp only [State.setFeedState, State.onFeed_offer, State.onFeed_offerAll, State.onFeed_onFeed]
    rfl
  unfold State.confirmRestart
  simp only [hbegin]

/-- Check 4 (R81): a copy just ahead of the candidate, on neither list, confirms the restart and is then placed (R84). -/
theorem State.confirmOrPlace_confirms {s : State} {i : FeedId} {e : SeqNum} {c : HeldRecord} {a : Arrival}
    (hc : (s.feed i).candidate = some c) (hpos : 1 ≤ (a.number - c.number).toNat) (hle : (a.number - c.number).toNat ≤ 16) :
    s.confirmOrPlace i e a = (s.confirmRestart i e c a).place i (c.number + 1) a := by
  have hconfirms : confirms c.number a.number = true := decide_eq_true ⟨hpos, hle⟩
  unfold State.confirmOrPlace
  rw [hc]
  exact if_pos hconfirms

/-- Settles O25: the candidate held, released as paired or due, and released for want of an entry. -/
theorem restartIsConfirmed : Obligations.RestartIsConfirmed := by
  intro s m a e c u h hs hc hpos hle hh hg hu
  obtain ⟨-, eprofile, ehold, egaps, ecandidate⟩ := heard_fields s m a
  have hother : ∀ c', (s.feed m.feed).candidate = some c' → c'.number ≠ a.number := by
    rintro c' hc'
    obtain rfl := Option.some.inj (hc.symm.trans hc')
    exact (ne_of_distance hpos).symm
  have hempty : (((s.heard m a).beginRestart m.feed e c a).feed m.feed).hold = [] := by simp [State.beginRestart]
  have hprofile : (((s.heard m a).beginRestart m.feed e c a).feed m.feed).profile = (s.feed m.feed).profile := by
    simp [State.beginRestart, State.feed_offerAll, eprofile]
  have hnow : ((s.heard m a).beginRestart m.feed e c a).now = s.now :=
    (State.now_congr (State.time_offerAll _ _)).trans (now_heard s m a).1
  have hslot : u = (((s.heard m a).beginRestart m.feed e c a).leaveSlot m.feed).count m.feed fun k => { k with restarts := k.restarts + 1 } := by
    rw [hu, State.leaveSlot, State.beginRestart, eprofile, ehold, egaps, (now_heard s m a).2]
    simp only [State.count, State.onFeed_onFeed]
    rfl
  have hfreeCount : ((s.heard m a).beginRestart m.feed e c a).freeCount = u.freeCount := by
    rw [hslot]
    exact ((State.freeCount_onFeed rfl).trans (State.freeCount_leaveSlot _ _)).symm
  refine ⟨(s.heard m a).confirmRestart m.feed e c a, ?_, fun hfree htwin hd => ?_, fun hgoes => ?_, fun hfull htwin => ?_⟩
  · rw [handOver_checkLists h hs hother, State.checkLists_unlisted (by rw [ehold]; exact hh) (by rw [egaps]; exact hg),
      State.confirmOrPlace_confirms (ecandidate.trans hc) hpos hle]
  · rw [State.confirmRestart_eq, State.promote_held hempty (by omega) htwin (by rw [hnow]; exact hd), hslot]
    simp only [State.count, State.onFeed_onFeed]
    rfl
  · rw [State.confirmRestart_eq, State.promote_released hempty (by rw [hnow, hfreeCount]; exact hgoes), hprofile, hslot]
    simp only [State.count, State.onFeed_offerAll, State.onFeed_onFeed]
    rfl
  · rw [State.confirmRestart_eq, State.promote_bypassed (hfreeCount.trans hfull) htwin, hprofile, hslot]
    simp only [State.count, State.onFeed_offerAll, State.onFeed_onFeed]
    rfl

end Sys2Proof.Machine
end

section
/-! SUPPORT. The pairing timer and the gap timer of a feed (R97, R99, R100, R104, R109, R111): O26. -/

namespace Sys2Proof.Machine

/-! ## Events of a released part -/

theorem exec_pairingTimerExpiry_released {s : State} (h : s.resetHold.held = false) (i : FeedId) :
    exec (.pairingTimerExpiry i) s = .next (s.expirePairing i) := whenReleased_of _ h

theorem exec_gapTimerExpiry_released {s : State} (h : s.resetHold.held = false) (i : FeedId) :
    exec (.gapTimerExpiry i) s = .next (s.expireGaps i) := whenReleased_of _ h

/-! ## PAIRING_TIMER_EXPIRY (R97, R99, R100) -/

section
variable {s : State} {i : FeedId} {h : HeldRecord} {behind : List HeldRecord}

/-- A head without a twin whose deadline is reached begins a chain, which takes it first (R99). -/
theorem State.expirePairing_due (hhold : (s.feed i).hold = h :: behind) (htwin : h.twin = none) (hd : reached h.deadline s.now = true) :
    s.expirePairing i = s.chain i := by
  unfold State.expirePairing; rw [hhold]; exact if_pos ⟨Option.isNone_iff_eq_none.mpr htwin, hd⟩

/-- The timer expires neither on a head with a twin nor before the head's deadline (R97). -/
theorem State.expirePairing_not_due (hhold : (s.feed i).hold = h :: behind) (hn : h.twin ≠ none ∨ reached h.deadline s.now = false) :
    s.expirePairing i = s := by
  have hstays : ¬ (h.twin.isNone = true ∧ reached h.deadline s.now = true) := by
    rintro ⟨htwin, hd⟩
    exact hn.elim (· (Option.isNone_iff_eq_none.mp htwin)) (Bool.eq_false_iff.mp · hd)
  unfold State.expirePairing; rw [hhold]; exact if_neg hstays

end

/-! ## GAP_TIMER_EXPIRY (R104, R109, R111) -/

/-- Ranges declared while the list is replaced: one offer of their records and one change of the feed (R111). -/
theorem State.setGaps_declareAll (i : FeedId) (rest : List GapRange) (cause : GapCause) (out : List GapRange) (s : State) :
    (s.setGaps i rest).declareAll i cause out = (s.offerAll (gapRecords i cause s.reading out)).onFeed i fun f =>
      { f with gaps := rest, counters := .declared out f.counters } := by
  have hreading : (s.setGaps i rest).reading = s.reading := rfl
  rw [State.declareAll_eq, hreading, State.setGaps, State.onFeed_offerAll, State.onFeed_onFeed]

/-- The expiry splits the gap list in front of the first range whose deadline is still ahead (R109). -/
theorem isDue_split {now : LocalCount} {out rest : List GapRange} (hdue : ∀ g ∈ out, reached g.deadline now = true)
    (hahead : ∀ g, rest.head? = some g → reached g.deadline now = false) :
    (out ++ rest).takeWhile (GapRange.isDue now) = out ∧ (out ++ rest).dropWhile (GapRange.isDue now) = rest := by
  have hdue' : ∀ g ∈ out, GapRange.isDue now g = true := hdue
  rw [List.takeWhile_append_of_pos hdue', List.dropWhile_append_of_pos hdue']
  cases rest with
  | nil => exact ⟨List.append_nil out, rfl⟩
  | cons g later =>
    have hg : ¬ GapRange.isDue now g = true := Bool.eq_false_iff.mp (hahead g rfl)
    rw [List.takeWhile_cons_of_neg hg, List.dropWhile_cons_of_neg hg]
    exact ⟨List.append_nil out, rfl⟩

theorem State.expireGaps_eq {s : State} {i : FeedId} {out rest : List GapRange} (hgaps : (s.feed i).gaps = out ++ rest)
    (hdue : ∀ g ∈ out, reached g.deadline s.now = true) (hahead : ∀ g, rest.head? = some g → reached g.deadline s.now = false) :
    s.expireGaps i = (s.offerAll (gapRecords i .timeout s.reading out)).onFeed i fun f =>
      { f with gaps := rest, counters := .declared out f.counters } := by
  obtain ⟨htake, hdrop⟩ := isDue_split hdue hahead
  rw [State.expireGaps, hgaps, htake, hdrop, State.setGaps_declareAll]

/-- Settles O26: no head, a head that stays, a head that is due and its chain; then the ranges that are due. -/
theorem pairingAndGapTimersExpire : Obligations.PairingAndGapTimersExpire := by
  refine ⟨fun s i hr => ?_, fun s i out rest hr hgaps hdue hahead => ?_⟩
  · rw [exec_pairingTimerExpiry_released hr]
    refine ⟨fun hempty => ?_, fun h behind hhold hn => ?_, fun h out rest htwin hd hchain => ?_⟩
    · rw [State.expirePairing_none hempty]
    · rw [State.expirePairing_not_due hhold hn]
    · rw [State.expirePairing_due hchain.split htwin hd, State.chain_eq hchain]
  · rw [exec_gapTimerExpiry_released hr, State.expireGaps_eq hgaps hdue hahead]

end Sys2Proof.Machine
end

section
/-! SUPPORT. The time base, the monitors and the discipline unit, operation by operation: which of their parts each one changes (R118 to R128, R143, R147, R148,
R153 to R156). -/

namespace Sys2Proof.Machine

/-! ## The end of a slew (R127, R128) -/

@[simp] theorem State.endSlew_time (c : SlewEndCause) (s : State) : (s.endSlew c).time = { s.time with slew := none } := by
  cases h : s.time.slew with
  | none => rw [State.endSlew_of_none h, ← h]
  | some sl => rw [State.endSlew_of h]; rfl

@[simp] theorem State.endSlew_monitors (c : SlewEndCause) (s : State) : (s.endSlew c).monitors = s.monitors := by
  unfold State.endSlew; split <;> rfl

@[simp] theorem State.endSlew_discipline (c : SlewEndCause) (s : State) : (s.endSlew c).discipline = s.discipline := by
  unfold State.endSlew; split <;> rfl

/-- A slew at its goal is completed (R127). -/
theorem State.completeSlew_of_goal {s : State} {sl : SlewFlight} (h : s.time.slew = some sl) (hg : sl.applied = sl.goal) :
    s.completeSlew = s.endSlew .complete := by
  unfold State.completeSlew; rw [h]; exact if_pos hg

/-- A completion is the end of the slew in flight, or nothing (R127). -/
theorem State.completeSlew_cases (s : State) : s.completeSlew = s ∨ s.completeSlew = s.endSlew .complete := by
  unfold State.completeSlew
  split
  · split
    · exact .inr rfl
    · exact .inl rfl
  · exact .inl rfl

/-- A completion changes no part of the time base but the slew. -/
theorem State.completeSlew_time (s : State) : s.completeSlew.time = { s.time with slew := s.completeSlew.time.slew } := by
  rcases s.completeSlew_cases with h | h <;> rw [h]
  rw [State.endSlew_time]

@[simp] theorem State.completeSlew_monitors (s : State) : s.completeSlew.monitors = s.monitors := by
  rcases s.completeSlew_cases with h | h <;> rw [h]
  exact State.endSlew_monitors _ s

@[simp] theorem State.completeSlew_discipline (s : State) : s.completeSlew.discipline = s.discipline := by
  rcases s.completeSlew_cases with h | h <;> rw [h]
  exact State.endSlew_discipline _ s

/-! ## Changes of state (R120, R121, R153) -/

@[simp] theorem State.changeTime_time (new : TimeState) (c : StateCause) (s : State) :
    (s.changeTime new c).time = { s.time with state := new, p := 0, slew := if new = .tracking then none else s.time.slew } := by
  unfold State.changeTime
  by_cases h : new = .tracking <;> simp [h]

@[simp] theorem State.changeTime_monitors (new : TimeState) (c : StateCause) (s : State) :
    (s.changeTime new c).monitors = s.monitors := by
  unfold State.changeTime
  by_cases h : new = .tracking <;> simp [h]

@[simp] theorem State.changeTime_discipline (new : TimeState) (c : StateCause) (s : State) :
    (s.changeTime new c).discipline = { s.discipline with holdoverEntry := if new = .holdover then some s.now else none } := by
  unfold State.changeTime
  by_cases h : new = .tracking <;> simp [h, State.now]

/-! ## Steps (R118, R122) -/

@[simp] theorem State.stepTo_time (c : StepCause) (v : TimeValue) (s : State) :
    (s.stepTo c v).time = { s.time with value := v, sub := 0, epoch := s.time.epoch + 1, slew := none } := by
  unfold State.stepTo
  simp only [State.endSlew_time, State.offerNow_time]
  rw [s.completeSlew_time]

@[simp] theorem State.stepTo_monitors (c : StepCause) (v : TimeValue) (s : State) : (s.stepTo c v).monitors = s.monitors := by
  simp [State.stepTo]

@[simp] theorem State.stepTo_discipline (c : StepCause) (v : TimeValue) (s : State) : (s.stepTo c v).discipline = s.discipline := by
  simp [State.stepTo]

/-! ## The monitors (R138, R143) -/

@[simp] theorem State.changeMonitor_time (r : RefId) (w : Watch) (c : MonitorCause) (s : State) :
    (s.changeMonitor r w c).time = s.time := rfl

@[simp] theorem State.changeMonitor_discipline (r : RefId) (w : Watch) (c : MonitorCause) (s : State) :
    (s.changeMonitor r w c).discipline = s.discipline := rfl

theorem State.isQualified_congr {s t : State} (h : t.monitors = s.monitors) (q : RefId) : t.isQualified q = s.isQualified q := by
  unfold State.isQualified State.monitor; rw [h]

/-- Whether a monitor is QUALIFIED is read from its watch alone. -/
theorem State.isQualified_setMonitor (s : State) (r q : RefId) (x : Monitor) :
    (s.setMonitor r x).isQualified q = if r = q then x.watch.state == .qualified else s.isQualified q := by
  unfold State.isQualified
  by_cases h : r = q
  · subst h; rw [State.monitor_setMonitor, if_pos rfl]
  · rw [State.monitor_setMonitor_ne s x h, if_neg h]

theorem State.isQualified_setWatch (s : State) (r q : RefId) (w : Watch) :
    (s.setWatch r w).isQualified q = if r = q then w.state == .qualified else s.isQualified q := s.isQualified_setMonitor r q _

theorem State.isQualified_changeMonitor (s : State) (r q : RefId) (w : Watch) (c : MonitorCause) :
    (s.changeMonitor r w c).isQualified q = if r = q then w.state == .qualified else s.isQualified q := s.isQualified_setWatch r q w

/-! ## The re-choice (R147, R148) -/

theorem State.choice_congr {s t : State} (hp : t.discipline.policy = s.discipline.policy)
    (hq : ∀ r, t.isQualified r = s.isQualified r) : t.choice = s.choice := by
  unfold State.choice; rw [hp, funext hq]

/-- With the followed reference kept there is nothing to follow (R147). -/
theorem State.follow_same {s : State} {new : Option RefId} (h : new = s.discipline.followed) (e : ChoiceEvent) : s.follow e new = s := if_pos h

@[simp] theorem State.follow_monitors (e : ChoiceEvent) (new : Option RefId) (s : State) : (s.follow e new).monitors = s.monitors := by
  unfold State.follow
  simp only
  split
  · rfl
  · split <;> rfl

@[simp] theorem State.follow_discipline (e : ChoiceEvent) (new : Option RefId) (s : State) :
    (s.follow e new).discipline = { s.discipline with followed := new } := by
  unfold State.follow
  simp only
  split
  · rename_i h; rw [h]
  · split <;> rfl

/-- Following another reference changes no part of the time base but p, which becomes 0 or stays (R148). -/
theorem State.follow_time (e : ChoiceEvent) (new : Option RefId) (s : State) :
    (s.follow e new).time = s.time ∨ (s.follow e new).time = { s.time with p := 0 } := by
  unfold State.follow
  simp only
  split
  · exact .inl rfl
  · split
    · exact .inr rfl
    · exact .inl rfl

section
variable {s : State}

/-- With the state that goes with the followed reference nothing moves (R148). -/
theorem State.moveState_kept (ht : s.time.state = .tracking ↔ s.discipline.followed.isSome = true)
    (hp : s.time.state = .holdover → s.discipline.policy ≠ .none) : s.moveState = s := by
  unfold State.moveState
  cases hf : s.discipline.followed with
  | some r => rw [ht.mpr (by rw [hf]; rfl)]
  | none =>
    have hn : s.time.state ≠ .tracking := fun h => by rw [hf] at ht; exact Bool.false_ne_true (ht.mp h)
    cases hs : s.time.state with
    | unset => rfl
    | free => rfl
    | tracking => exact absurd hs hn
    | holdover => exact if_neg (hp hs)

theorem State.moveState_followed {r : RefId} (hf : s.discipline.followed = some r) (hs : s.time.state ≠ .tracking) :
    s.moveState = s.changeTime .tracking .referenceFollowed := by
  unfold State.moveState
  rw [hf]
  cases h : s.time.state with
  | unset => rfl
  | free => rfl
  | tracking => exact absurd h hs
  | holdover => rfl

theorem State.moveState_lost (hf : s.discipline.followed = none) (hs : s.time.state = .tracking) (hp : s.discipline.policy ≠ .none) :
    s.moveState = s.changeTime .holdover .referenceLost := by
  unfold State.moveState; rw [hf, hs]; exact if_neg hp

theorem State.moveState_policyNone (hf : s.discipline.followed = none) (hs : s.time.state = .tracking ∨ s.time.state = .holdover)
    (hp : s.discipline.policy = .none) : s.moveState = s.changeTime .free .policyNone := by
  unfold State.moveState
  rcases hs with hs | hs <;> rw [hf, hs] <;> exact if_pos hp

/-- The move of the state: none, into TRACKING, and out of it or of HOLDOVER with no reference followed (R148). -/
theorem State.moveState_cases (s : State) :
    (s.moveState = s ∧ (s.time.state = .tracking ↔ s.discipline.followed.isSome = true) ∧
      (s.time.state = .holdover → s.discipline.policy ≠ .none)) ∨
    (s.moveState = s.changeTime .tracking .referenceFollowed ∧ s.discipline.followed.isSome = true ∧ s.time.state ≠ .tracking) ∨
    (s.moveState = s.changeTime .holdover .referenceLost ∧ s.discipline.followed = none ∧ s.time.state = .tracking ∧
      s.discipline.policy ≠ .none) ∨
    (s.moveState = s.changeTime .free .policyNone ∧ s.discipline.followed = none ∧
      (s.time.state = .tracking ∨ s.time.state = .holdover) ∧ s.discipline.policy = .none) := by
  cases hf : s.discipline.followed with
  | some r =>
    by_cases ht : s.time.state = .tracking
    · have hiff : s.time.state = .tracking ↔ s.discipline.followed.isSome = true := by simp [ht, hf]
      have hp : s.time.state = .holdover → s.discipline.policy ≠ .none := by simp [ht]
      exact .inl ⟨State.moveState_kept hiff hp, hf ▸ hiff, hp⟩
    · exact .inr (.inl ⟨State.moveState_followed hf ht, rfl, ht⟩)
  | none =>
    by_cases hp : s.discipline.policy = .none
    · by_cases hs : s.time.state = .tracking ∨ s.time.state = .holdover
      · exact .inr (.inr (.inr ⟨State.moveState_policyNone hf hs hp, rfl, hs, hp⟩))
      · have hiff : s.time.state = .tracking ↔ s.discipline.followed.isSome = true := by simp [hf]; tauto
        have hh : s.time.state = .holdover → s.discipline.policy ≠ .none := fun h => absurd (.inr h) hs
        exact .inl ⟨State.moveState_kept hiff hh, hf ▸ hiff, hh⟩
    · by_cases ht : s.time.state = .tracking
      · exact .inr (.inr (.inl ⟨State.moveState_lost hf ht hp, rfl, ht, hp⟩))
      · have hiff : s.time.state = .tracking ↔ s.discipline.followed.isSome = true := by simp [hf, ht]
        exact .inl ⟨State.moveState_kept hiff fun _ => hp, hf ▸ hiff, fun _ => hp⟩

end

@[simp] theorem State.moveState_monitors (s : State) : s.moveState.monitors = s.monitors := by
  rcases s.moveState_cases with ⟨h, -⟩ | ⟨h, -⟩ | ⟨h, -⟩ | ⟨h, -⟩ <;> rw [h]
  all_goals exact State.changeTime_monitors _ _ s

/-- The move of the state changes no part of the discipline unit but the holdover's entry (R153). -/
theorem State.moveState_discipline (s : State) :
    s.moveState.discipline = { s.discipline with holdoverEntry := s.moveState.discipline.holdoverEntry } := by
  rcases s.moveState_cases with ⟨h, -⟩ | ⟨h, -⟩ | ⟨h, -⟩ | ⟨h, -⟩ <;> rw [h]
  all_goals rw [State.changeTime_discipline]

@[simp] theorem State.rechoose_monitors (e : ChoiceEvent) (s : State) : (s.rechoose e).monitors = s.monitors := by
  simp [State.rechoose]

/-- A re-choice changes the followed reference and the holdover's entry, and nothing else of the discipline unit (R147, R153). -/
theorem State.rechoose_discipline (e : ChoiceEvent) (s : State) : (s.rechoose e).discipline =
    { s.discipline with followed := s.choice, holdoverEntry := (s.rechoose e).discipline.holdoverEntry } := by
  unfold State.rechoose
  rw [State.moveState_discipline, State.follow_discipline]

theorem State.rechoose_choice (e : ChoiceEvent) (s : State) : (s.rechoose e).choice = s.choice :=
  State.choice_congr (by rw [State.rechoose_discipline]) (State.isQualified_congr (State.rechoose_monitors e s))

/-- A re-choice that finds what the policy asks for changes nothing (R147, R148). -/
theorem State.rechoose_of_following {s : State} (h : s.Following) (e : ChoiceEvent) : s.rechoose e = s := by
  obtain ⟨hchosen, htracking, hpolicy, -⟩ := h
  unfold State.rechoose
  rw [State.follow_same hchosen.symm, State.moveState_kept htracking hpolicy]

/-! ## Measurements (R155, R156) -/

@[simp] theorem State.endMeasure_time (c : MeasureCause) (s : State) : (s.endMeasure c).time = s.time := by
  unfold State.endMeasure; split <;> rfl

@[simp] theorem State.endMeasure_monitors (c : MeasureCause) (s : State) : (s.endMeasure c).monitors = s.monitors := by
  unfold State.endMeasure; split <;> rfl

@[simp] theorem State.endMeasure_discipline (c : MeasureCause) (s : State) :
    (s.endMeasure c).discipline = { s.discipline with measurement := none } := by
  unfold State.endMeasure
  split
  · rename_i h; rw [← h]
  · rfl

/-- A measurement on a reference is ended, and there is no other to end (R156). -/
theorem State.endMeasureOn_cases (r : RefId) (c : MeasureCause) (s : State) :
    s.endMeasureOn r c = s.endMeasure c ∨ s.endMeasureOn r c = s ∧ ∀ m, s.discipline.measurement = some m → m.ref ≠ r := by
  unfold State.endMeasureOn
  split
  · rename_i m hm
    split
    · exact .inl rfl
    · rename_i hr
      refine .inr ⟨rfl, fun m' h => ?_⟩
      rw [hm] at h; injection h with h; rw [← h]; exact hr
  · rename_i hm; exact .inr ⟨rfl, fun m h => nomatch hm.symm.trans h⟩

end Sys2Proof.Machine
end

section
/-! SUPPORT. The invariant of the time base, the monitors and the discipline unit (R119, R120, R126, R127, R147, R148, R153 to R155): kept by each of their
events and requests, and so by every step (O58). -/

namespace Sys2Proof.Machine

/-! ## Rates and slews (R119, R126, R127) -/

theorem clamp_bounds {x : Int} (hx : 0 ≤ x) (v : Int) : -x ≤ clamp x v ∧ clamp x v ≤ x := by
  unfold clamp; omega

theorem zero_within_rateLimit : -Config.rateLimit ≤ 0 ∧ 0 ≤ Config.rateLimit := by decide

/-- The rate terms stay sound in any time base that keeps them, the state, and the slew or ends it. -/
theorem TimeBase.Sound.congr {t u : TimeBase} (h : t.Sound) (hf : u.f = t.f) (hp : u.p = t.p) (hst : u.state = t.state)
    (hsl : u.slew = t.slew ∨ u.slew = none) : u.Sound := by
  refine ⟨hf ▸ h.f, hp ▸ h.p, fun hn => hp ▸ h.steered (hst ▸ hn), fun hs => ?_, fun sl hs => ?_⟩ <;> rcases hsl with e | e
  · rw [hst]; exact h.slewing (e ▸ hs)
  · rw [e] at hs; exact nomatch hs
  · rw [hf]; exact h.slew sl (e ▸ hs)
  · rw [e] at hs; exact nomatch hs

theorem TimeBase.Sound.noSlew {t : TimeBase} (h : t.Sound) : { t with slew := none }.Sound := h.congr rfl rfl rfl (.inr rfl)

/-- The phase term may always become 0 (R119, R120). -/
theorem TimeBase.Sound.zeroPhase {t : TimeBase} (h : t.Sound) : { t with p := 0 }.Sound :=
  ⟨h.f, zero_within_rateLimit, fun _ => rfl, h.slewing, h.slew⟩

/-- In TRACKING no slew is in flight (R126, R128). -/
theorem TimeBase.Sound.tracking_slew {t : TimeBase} (h : t.Sound) (ht : t.state = .tracking) : t.slew = none := by
  by_contra hs
  have := h.slewing (Option.isSome_iff_ne_none.mpr hs)
  simp [ht] at this

/-- A steered time base: any terms within their limits, since no slew is in flight (R119, R152). -/
theorem TimeBase.Sound.steer {t : TimeBase} (h : t.Sound) (ht : t.state = .tracking) {f p : Int}
    (hf : -Config.freqLimit ≤ f ∧ f ≤ Config.freqLimit) (hp : -Config.rateLimit ≤ p ∧ p ≤ Config.rateLimit) :
    { t with f := f, p := p }.Sound := by
  have hs := h.tracking_slew ht
  refine ⟨hf, hp, fun hn => absurd ht hn, fun hsl => ?_, fun sl hsl => ?_⟩
  · simp [hs] at hsl
  · exact nomatch hs.symm.trans hsl

/-- A change to FREE, TRACKING or HOLDOVER keeps the terms sound, since a slew in flight ends on entry into TRACKING (R119, R120, R128). -/
theorem TimeBase.Sound.enter {t : TimeBase} (h : t.Sound) {new : TimeState} (hn : new ≠ .unset) :
    { t with state := new, p := 0, slew := if new = TimeState.tracking then none else t.slew }.Sound := by
  refine ⟨h.f, zero_within_rateLimit, fun _ => rfl, fun hs => ?_, fun sl hs => ?_⟩
  · cases new <;> simp_all
  · by_cases ht : new = .tracking
    · simp [ht] at hs
    · exact h.slew sl (by simpa [ht] using hs)

/-- The amount applied goes toward the goal and not past it (R127). -/
theorem SlewFlight.Sound.advance {f : Int} {sl : SlewFlight} (h : sl.Sound f) (n : Nat) : (sl.advance n).Sound f := by
  obtain ⟨hne, hlo, hhi, hr1, hr2, hf, hup, hdown⟩ := h
  have hterm : 0 ≤ (n : Int) * (16 * sl.rate) := by positivity
  refine ⟨hne, hlo, hhi, hr1, hr2, hf, fun hpos => ?_, fun hneg => ?_⟩
  · obtain ⟨h0, hg⟩ := hup hpos
    have ha : (sl.advance n).applied = min (sl.applied + n * (16 * sl.rate)) sl.goal := by
      simp only [SlewFlight.advance, SlewFlight.appliedAfter, SlewFlight.term, if_pos (show 0 < sl.requested from hpos)]
    have hgoal : (sl.advance n).goal = sl.goal := rfl
    rw [ha, hgoal]; omega
  · obtain ⟨hg, h0⟩ := hdown hneg
    have hn : ¬ 0 < sl.requested := not_lt.mpr (le_of_lt hneg)
    have ha : (sl.advance n).applied = max (sl.applied - n * (16 * sl.rate)) sl.goal := by
      simp only [SlewFlight.advance, SlewFlight.appliedAfter, SlewFlight.term, if_neg hn, mul_neg, ← sub_eq_add_neg]
    have hgoal : (sl.advance n).goal = sl.goal := rfl
    rw [ha, hgoal]; omega

theorem TimeBase.Sound.advance {t : TimeBase} (h : t.Sound) (n : Nat) : (t.advance n).Sound := by
  refine ⟨h.f, h.p, h.steered, fun hs => h.slewing ?_, fun sl hs => ?_⟩
  · simpa [TimeBase.advance] using hs
  · obtain ⟨sl', hsl', rfl⟩ := Option.map_eq_some_iff.mp (show t.slew.map (SlewFlight.advance n) = some sl from hs)
    exact (h.slew sl' hsl').advance n

/-! ## What the invariant depends on -/

/-- What the invariant asks of one measurement (R154 to R156). -/
def State.Measures (s : State) (m : Measurement) : Prop :=
  s.isQualified m.ref = true ∧ 2 ≤ m.n ∧ m.n ≤ 64 ∧ m.intervals < m.n ∧ (m.first = none → m.intervals = 0)

theorem State.measuring_iff (s : State) : s.Measuring ↔ ∀ m, s.discipline.measurement = some m → s.Measures m := Iff.rfl

theorem State.Measuring.congr {s t : State} (h : s.Measuring) (hq : ∀ r, t.isQualified r = s.isQualified r)
    (hm : t.discipline.measurement = s.discipline.measurement) : t.Measuring := by
  intro m e; rw [hq]; exact h m (hm ▸ e)

/-- The reference that is followed, and the entry of a holdover, in any state that names the same. -/
theorem State.Following.congr {s t : State} (h : s.Following) (hst : t.time.state = s.time.state)
    (hq : ∀ r, t.isQualified r = s.isQualified r) (hp : t.discipline.policy = s.discipline.policy)
    (hf : t.discipline.followed = s.discipline.followed) (he : t.discipline.holdoverEntry = s.discipline.holdoverEntry) :
    t.Following := by
  refine ⟨?_, ?_, ?_, ?_⟩
  · rw [hf, State.choice_congr hp hq]; exact h.chosen
  · rw [hst, hf]; exact h.tracking
  · rw [hst, hp]; exact h.policy
  · rw [hst, he]; exact h.entry

/-- The invariant speaks of the time base, of which monitors are QUALIFIED, and of the discipline unit. -/
theorem State.TimeSound.congr {s t : State} (h : s.TimeSound) (ht : t.time = s.time) (hq : ∀ r, t.isQualified r = s.isQualified r)
    (hd : t.discipline = s.discipline) : t.TimeSound :=
  ⟨ht ▸ h.base, h.following.congr (by rw [ht]) hq (by rw [hd]) (by rw [hd]) (by rw [hd]), h.measuring.congr hq (by rw [hd]),
    hd ▸ h.settle⟩

/-- Two states that agree on the time base, the monitors and the discipline unit. -/
structure SameTiming (s t : State) : Prop where
  time : t.time = s.time
  monitors : t.monitors = s.monitors
  discipline : t.discipline = s.discipline

theorem SameTiming.refl (s : State) : SameTiming s s := ⟨rfl, rfl, rfl⟩

theorem SameTiming.trans {s t u : State} (a : SameTiming s t) (b : SameTiming t u) : SameTiming s u :=
  ⟨b.time.trans a.time, b.monitors.trans a.monitors, b.discipline.trans a.discipline⟩

theorem SameTiming.linkBlind (s : State) : LinkBlind (SameTiming s) :=
  ⟨fun _ _ h => ⟨h.time, h.monitors, h.discipline⟩, fun _ _ h => ⟨h.time, h.monitors, h.discipline⟩⟩

theorem Acts.sameTiming {i : FeedId} {s t : State} (a : Acts i s t) : SameTiming s t := ⟨a.same.time, a.same.monitors, a.same.discipline⟩

theorem LineActs.sameTiming {i : LineId} {s t : State} (a : LineActs i s t) : SameTiming s t := ⟨a.time, a.monitors, a.discipline⟩

theorem State.TimeSound.same {s t : State} (h : s.TimeSound) (e : SameTiming s t) : t.TimeSound :=
  h.congr e.time (State.isQualified_congr e.monitors) e.discipline

/-! ## The time base (R118 to R128) -/

section
variable {s : State}

/-- A change of the time base alone that keeps its state. -/
theorem State.TimeSound.setTime (h : s.TimeSound) {t : State} (hb : t.time.Sound) (hst : t.time.state = s.time.state)
    (hm : t.monitors = s.monitors) (hd : t.discipline = s.discipline) : t.TimeSound :=
  ⟨hb, h.following.congr hst (State.isQualified_congr hm) (by rw [hd]) (by rw [hd]) (by rw [hd]),
    h.measuring.congr (State.isQualified_congr hm) (by rw [hd]), hd ▸ h.settle⟩

theorem State.TimeSound.endSlew (h : s.TimeSound) (c : SlewEndCause) : (s.endSlew c).TimeSound :=
  h.setTime (by simpa using h.base.noSlew) (by simp) (by simp) (by simp)

theorem State.TimeSound.completeSlew (h : s.TimeSound) : s.completeSlew.TimeSound := by
  rcases s.completeSlew_cases with e | e <;> rw [e]
  · exact h
  · exact h.endSlew _

theorem State.TimeSound.stepTo (h : s.TimeSound) (c : StepCause) (v : TimeValue) : (s.stepTo c v).TimeSound :=
  h.setTime (h.base.congr (by simp) (by simp) (by simp) (.inr (by simp))) (by simp) (by simp) (by simp)

/-- A change to FREE of a time base that is not TRACKING, where no reference is followed (R120, R123, R153). -/
theorem State.TimeSound.changeToFree (h : s.TimeSound) (hn : s.time.state ≠ .tracking) (c : StateCause) :
    (s.changeTime .free c).TimeSound := by
  have hq : ∀ r, (s.changeTime .free c).isQualified r = s.isQualified r := State.isQualified_congr (State.changeTime_monitors _ _ s)
  have hf : s.discipline.followed.isSome = false := Bool.eq_false_iff.mpr fun hf => hn (h.following.tracking.mpr hf)
  refine ⟨?_, ⟨?_, ?_, ?_, ?_⟩, h.measuring.congr hq (by simp), by simpa using h.settle⟩
  · rw [State.changeTime_time]; exact h.base.enter (by decide)
  · rw [State.choice_congr (s := s) (by simp) hq]; simpa using h.following.chosen
  · simp [hf]
  · simp
  · simp

theorem State.TimeSound.elapse (h : s.TimeSound) (n : Nat) : (s.elapse n).TimeSound := by
  unfold State.elapse
  split
  · exact h
  · exact h.setTime (h.base.advance n) rfl rfl rfl

end

/-! ## The re-choice (R147, R148, R153) -/

/-- What a re-choice starts from: the terms are sound, and the entry of a holdover is kept exactly in HOLDOVER. The monitors and the policy may have changed. -/
structure State.Choosable (s : State) : Prop where
  base : s.time.Sound
  entry : s.discipline.holdoverEntry.isSome = true ↔ s.time.state = .holdover

section
variable {s : State}

theorem State.Choosable.changeTime (h : s.Choosable) {new : TimeState} (hn : new ≠ .unset) (c : StateCause) :
    (s.changeTime new c).Choosable := by
  refine ⟨?_, ?_⟩
  · rw [State.changeTime_time]; exact h.base.enter hn
  · cases new <;> simp

theorem State.Choosable.follow (h : s.Choosable) (e : ChoiceEvent) (new : Option RefId) : (s.follow e new).Choosable := by
  rcases s.follow_time e new with ht | ht
  · refine ⟨ht ▸ h.base, ?_⟩; rw [ht]; simpa using h.entry
  · refine ⟨ht ▸ h.base.zeroPhase, ?_⟩; rw [ht]; simpa using h.entry

/-- The move of the state makes TRACKING and a followed reference agree, and leaves HOLDOVER under policy NONE (R148, R153). -/
theorem State.Choosable.moveState (h : s.Choosable) : s.moveState.Choosable ∧
    (s.moveState.time.state = .tracking ↔ s.discipline.followed.isSome = true) ∧
    (s.moveState.time.state = .holdover → s.discipline.policy ≠ .none) := by
  rcases s.moveState_cases with ⟨e, ht, hp⟩ | ⟨e, hf, -⟩ | ⟨e, hf, -, hp⟩ | ⟨e, hf, -⟩ <;> rw [e]
  · exact ⟨h, ht, hp⟩
  · exact ⟨h.changeTime (by decide) _, by simp [hf], by simp⟩
  · exact ⟨h.changeTime (by decide) _, by simp [hf], fun _ => hp⟩
  · exact ⟨h.changeTime (by decide) _, by simp [hf], by simp⟩

/-- Whatever a re-choice finds, it leaves the policy's first QUALIFIED reference followed, and the state that goes with it (R147, R148). -/
theorem State.Choosable.rechoose (h : s.Choosable) (e : ChoiceEvent) : (s.rechoose e).time.Sound ∧ (s.rechoose e).Following := by
  have hd := s.rechoose_discipline e
  obtain ⟨⟨hbase, hentry⟩, htracking, hpolicy⟩ := (h.follow e s.choice).moveState
  rw [State.follow_discipline] at htracking hpolicy
  refine ⟨hbase, ⟨?_, ?_, ?_, hentry⟩⟩
  · rw [State.rechoose_choice, hd]
  · rw [hd]; exact htracking
  · rw [hd]; exact hpolicy

/-- A re-choice restores the invariant when the measurement in flight is sound. -/
theorem State.Choosable.rechoose_timeSound (h : s.Choosable) (hm : s.Measuring) (hs : 1 ≤ s.discipline.params.settle)
    (e : ChoiceEvent) : (s.rechoose e).TimeSound := by
  have hd := s.rechoose_discipline e
  obtain ⟨hbase, hfollowing⟩ := h.rechoose e
  exact ⟨hbase, hfollowing, hm.congr (State.isQualified_congr (s.rechoose_monitors e)) (by rw [hd]), by rw [hd]; exact hs⟩

/-! ## Measurements (R154 to R156) -/

/-- A measurement started, continued or ended. -/
theorem State.TimeSound.setMeasurement (h : s.TimeSound) {m : Option Measurement} (hm : ∀ x, m = some x → s.Measures x) :
    ({ s with discipline := { s.discipline with measurement := m } } : State).TimeSound :=
  ⟨h.base, h.following.congr rfl (fun _ => rfl) rfl rfl rfl, (State.measuring_iff _).mpr hm, h.settle⟩

/-- The end of a measurement keeps the rest of the invariant, which does not ask what was measured. -/
theorem State.endMeasure_timeSound (hb : s.time.Sound) (hf : s.Following) (hs : 1 ≤ s.discipline.params.settle) (c : MeasureCause) :
    (s.endMeasure c).TimeSound := by
  refine ⟨by simpa using hb, hf.congr (by simp) (State.isQualified_congr (by simp)) (by simp) (by simp) (by simp), ?_, by simpa using hs⟩
  intro m hm; simp at hm

theorem State.TimeSound.endMeasure (h : s.TimeSound) (c : MeasureCause) : (s.endMeasure c).TimeSound :=
  State.endMeasure_timeSound h.base h.following h.settle c

/-- A pulse taken into a measurement adds an interval, or is its first (R155). -/
theorem Measurement.takePulse_measures {m : Measurement} (h : s.Measures m) (now : LocalCount)
    (hn : ¬ ((m.takePulse now).first.isSome = true ∧ (m.takePulse now).intervals = (m.takePulse now).n)) : s.Measures (m.takePulse now) := by
  obtain ⟨hq, hlo, hhi, hlt, hfirst⟩ := h
  unfold Measurement.takePulse at *
  cases hm : m.first with
  | none => simp only [hm] at hn ⊢; exact ⟨hq, hlo, hhi, hlt, nofun⟩
  | some x =>
    simp only [hm, Option.isSome_some, true_and] at hn ⊢
    exact ⟨hq, hlo, hhi, by show m.intervals + 1 < m.n; omega, nofun⟩

theorem State.TimeSound.measurePulse (h : s.TimeSound) (r : RefId) : (s.measurePulse r).TimeSound := by
  unfold State.measurePulse
  cases hm : s.discipline.measurement with
  | none => exact h
  | some m =>
    simp only
    split
    · split
      · refine State.endMeasure_timeSound ?_ ?_ ?_ _
        · exact h.base
        · exact h.following.congr rfl (fun _ => rfl) rfl rfl rfl
        · exact h.settle
      · rename_i hn
        refine h.setMeasurement ?_
        rintro _ ⟨⟩
        exact Measurement.takePulse_measures (h.measuring m hm) _ hn
    · exact h

/-! ## Phase capture and the tracking law (R149 to R152) -/

theorem freqTerm_bounds (f e : Int) (settle : Nat) :
    -Config.freqLimit ≤ freqTerm f e settle ∧ freqTerm f e settle ≤ Config.freqLimit := clamp_bounds (by decide) _

theorem phaseTerm_bounds (e : Int) (settle : Nat) :
    -Config.rateLimit ≤ phaseTerm e settle ∧ phaseTerm e settle ≤ Config.rateLimit := clamp_bounds (by decide) _

theorem State.TimeSound.trackingLaw (h : s.TimeSound) (ht : s.time.state = .tracking) (e : Int) : (s.trackingLaw e).TimeSound := by
  unfold State.trackingLaw
  simp only
  split
  · exact h.setTime (h.base.steer ht (freqTerm_bounds _ _ _) (phaseTerm_bounds _ _)) rfl rfl rfl
  · split
    · have hs : (s.stepBy .discipline (-e)).TimeSound := h.stepTo _ _
      exact hs.setTime hs.base.zeroPhase rfl rfl rfl
    · exact ⟨h.base.steer ht h.base.f (phaseTerm_bounds _ _), h.following.congr rfl (fun _ => rfl) rfl rfl rfl,
        h.measuring.congr (fun _ => rfl) rfl, h.settle⟩

theorem State.TimeSound.disciplinePulse (h : s.TimeSound) (r : RefId) (e : Int) : (s.disciplinePulse r e).TimeSound := by
  unfold State.disciplinePulse
  split
  · rename_i hc; exact h.trackingLaw hc.2 e
  · exact h

theorem State.TimeSound.acceptQualified (h : s.TimeSound) (r : RefId) (e : Int) : (s.acceptQualified r e).TimeSound :=
  (h.disciplinePulse r e).measurePulse r

/-! ## The monitors (R138 to R143) -/

/-- A change of a monitor that is QUALIFIED before and after it, or neither. -/
theorem State.TimeSound.setMonitor (h : s.TimeSound) {r : RefId} {x : Monitor} (hx : (x.watch.state == .qualified) = s.isQualified r) :
    (s.setMonitor r x).TimeSound := by
  refine h.congr rfl (fun q => ?_) rfl
  rw [State.isQualified_setMonitor]
  split
  · rename_i e; rw [hx, e]
  · rfl

theorem State.TimeSound.setWatch (h : s.TimeSound) {r : RefId} {w : Watch} (hw : (w.state == .qualified) = s.isQualified r) :
    (s.setWatch r w).TimeSound := h.setMonitor hw

theorem State.TimeSound.countEarly (h : s.TimeSound) (r : RefId) : (s.countEarly r).TimeSound := h.setMonitor rfl

/-- A change of monitor state that neither enters nor leaves QUALIFIED leaves the choice as it was. -/
theorem State.TimeSound.changeUnqualified (h : s.TimeSound) {r : RefId} {w : Watch} (hw : (w.state == .qualified) = s.isQualified r)
    (c : MonitorCause) (e : ChoiceEvent) : ((s.changeMonitor r w c).rechoose e).TimeSound := by
  have hc : (s.changeMonitor r w c).TimeSound := (h.setWatch hw).congr rfl (fun _ => rfl) rfl
  rw [State.rechoose_of_following hc.following]
  exact hc

/-- Any change of monitor state leaves what a re-choice starts from. -/
theorem State.TimeSound.changeMonitor_choosable (h : s.TimeSound) (r : RefId) (w : Watch) (c : MonitorCause) :
    (s.changeMonitor r w c).Choosable := ⟨h.base, h.following.entry⟩

/-- Entry into QUALIFIED, with its re-choice: the measurement in flight stays on a QUALIFIED reference. -/
theorem State.TimeSound.qualify (h : s.TimeSound) {r : RefId} {w : Watch} (hw : w.state = .qualified) (c : MonitorCause) (e : ChoiceEvent) :
    ((s.changeMonitor r w c).rechoose e).TimeSound := by
  refine (h.changeMonitor_choosable r w c).rechoose_timeSound (fun m hm => ?_) h.settle e
  obtain ⟨hq, hrest⟩ := h.measuring m hm
  refine ⟨?_, hrest⟩
  rw [State.isQualified_changeMonitor]
  split
  · rw [hw]; rfl
  · exact hq

/-- A change of monitor state, with the re-choice and the end of a measurement on that reference (R142, R147, R156). -/
theorem State.TimeSound.changeAndEnd (h : s.TimeSound) (r : RefId) (w : Watch) (c : MonitorCause) (e : ChoiceEvent) (mc : MeasureCause) :
    (((s.changeMonitor r w c).rechoose e).endMeasureOn r mc).TimeSound := by
  have hd := (s.changeMonitor r w c).rechoose_discipline e
  have hsettle : 1 ≤ ((s.changeMonitor r w c).rechoose e).discipline.params.settle := by rw [hd]; exact h.settle
  obtain ⟨hbase, hfollowing⟩ := (h.changeMonitor_choosable r w c).rechoose e
  rcases State.endMeasureOn_cases r mc ((s.changeMonitor r w c).rechoose e) with he | ⟨he, hother⟩ <;> rw [he]
  · exact State.endMeasure_timeSound hbase hfollowing hsettle mc
  · refine ⟨hbase, hfollowing, fun m hm => ?_, hsettle⟩
    have hs : s.discipline.measurement = some m := by rw [hd] at hm; exact hm
    obtain ⟨hq, hrest⟩ := h.measuring m hs
    refine ⟨?_, hrest⟩
    rw [State.isQualified_congr (State.rechoose_monitors e _), State.isQualified_changeMonitor, if_neg (hother m hm).symm]
    exact hq

theorem State.TimeSound.loseMonitor (h : s.TimeSound) (r : RefId) (c : MonitorCause) : (s.loseMonitor r c).TimeSound :=
  h.changeAndEnd r .absent c _ _

theorem State.TimeSound.timeoutMonitor (h : s.TimeSound) (r : RefId) : (s.timeoutMonitor r).TimeSound := by
  unfold State.timeoutMonitor
  split
  · exact h.loseMonitor r _
  · exact h

theorem State.isQualified_of_watch {r : RefId} {w : Watch} (hw : (s.monitor r).watch = w) : s.isQualified r = (w.state == .qualified) := by
  unfold State.isQualified; rw [hw]

theorem State.TimeSound.judgePulse (h : s.TimeSound) (r : RefId) (e : Int) : (s.judgePulse r e).TimeSound := by
  unfold State.judgePulse
  cases hw : (s.monitor r).watch with
  | off => exact h
  | absent =>
    have hq : s.isQualified r = false := State.isQualified_of_watch hw
    exact h.changeUnqualified (w := .qualifying 1 s.now) hq.symm _ _
  | qualifying k last =>
    have hq : s.isQualified r = false := State.isQualified_of_watch hw
    simp only
    split
    · split
      · exact (h.completeSlew.qualify (w := .qualified s.now false) rfl _ _).acceptQualified r e
      · exact h.setWatch (w := .qualifying (k + 1) s.now) hq.symm
    · exact h.setWatch (w := .qualifying 1 s.now) hq.symm
  | qualified last early =>
    have hq : s.isQualified r = true := State.isQualified_of_watch hw
    simp only
    split
    · exact (h.setWatch (w := .qualified s.now false) hq.symm).acceptQualified r e
    · split
      · exact (h.countEarly r).loseMonitor r _
      · have hq' : (s.countEarly r).isQualified r = s.isQualified r := by
          unfold State.countEarly; rw [State.isQualified_setMonitor, if_pos rfl]; rfl
        exact (h.countEarly r).setWatch (w := .qualified last true) (hq'.trans hq).symm

theorem State.TimeSound.takePulse (h : s.TimeSound) (r : RefId) (edge : Edge) : (s.takePulse r edge).TimeSound := by
  unfold State.takePulse
  split
  · split
    · exact (h.loseMonitor r _).judgePulse r _
    · exact h.judgePulse r _
  · exact h

/-- The holdover timer takes HOLDOVER to FREE, or does nothing (R153). -/
theorem State.expireHoldover_cases (s : State) :
    s.expireHoldover = s ∨ s.time.state = .holdover ∧ s.expireHoldover = s.changeTime .free .holdoverLimit := by
  unfold State.expireHoldover
  split
  · rename_i hd
    refine .inr ⟨?_, rfl⟩
    by_contra hs
    rw [State.holdoverDeadline, if_neg fun hc => hs hc.1] at hd
    exact Bool.false_ne_true hd
  · exact .inl rfl

theorem State.TimeSound.expireHoldover (h : s.TimeSound) : s.expireHoldover.TimeSound := by
  rcases s.expireHoldover_cases with e | ⟨hs, e⟩ <;> rw [e]
  · exact h
  · exact h.changeToFree (by rw [hs]; nofun) _

/-! ## Requests (R123, R124, R126, R130, R139, R145, R146, R154) -/

theorem State.TimeSound.ownSetTime (h : s.TimeSound) (p : List Byte) : (ownSetTime p s).1.TimeSound := by
  unfold Machine.ownSetTime
  split
  · exact h
  · simp only
    split
    · rename_i hu; exact (h.stepTo _ _).changeToFree (by simp [hu]) _
    · exact h.stepTo _ _

theorem State.TimeSound.ownAdjustTime (h : s.TimeSound) (p : List Byte) : (ownAdjustTime p s).1.TimeSound := by
  unfold Machine.ownAdjustTime
  simp only
  split
  · exact h
  · split
    · exact h
    · exact h.stepTo _ _

theorem slewInRange_iff (f amount : Int) (rate : Nat) : slewInRange f amount rate = true ↔
    (-maxSlew ≤ amount ∧ amount ≤ maxSlew) ∧ (1 ≤ rate ∧ rate ≤ 200000) ∧ (f.natAbs : Int) + 16 * rate ≤ Config.rateLimit := by
  unfold slewInRange within
  simp only [Bool.and_eq_true, decide_eq_true_iff, and_assoc]

/-- A slew that SLEW accepts, started in FREE or HOLDOVER, has applied nothing yet (R126, R127). -/
theorem State.TimeSound.startSlew (h : s.TimeSound) (hs : s.time.state = .free ∨ s.time.state = .holdover) {amount : Int} {rate : Nat}
    (hne : amount ≠ 0) (hr : slewInRange s.time.f amount rate = true) : (s.startSlew amount rate).TimeSound := by
  obtain ⟨⟨hlo, hhi⟩, ⟨hr1, hr2⟩, hf⟩ := (slewInRange_iff _ _ _).mp hr
  have hu : (Config.unitsPerQuarter : Int) = 4000000000 := rfl
  refine h.setTime ⟨h.base.f, h.base.p, h.base.steered, fun _ => hs, ?_⟩ rfl rfl rfl
  rintro _ ⟨⟩
  refine ⟨hne, hlo, hhi, hr1, hr2, hf, fun hpos => ⟨le_refl _, ?_⟩, fun hneg => ⟨?_, le_refl _⟩⟩ <;>
    simp only [SlewFlight.goal, hu] at * <;> omega

theorem State.TimeSound.ownSlew (h : s.TimeSound) (p : List Byte) : (ownSlew p s).1.TimeSound := by
  unfold Machine.ownSlew
  simp only
  split
  · exact h
  · rename_i hs
    split
    · exact h.endSlew _
    · rename_i hne
      split
      · rename_i hr
        have hst : s.time.state = .free ∨ s.time.state = .holdover := by cases e : s.time.state <;> simp_all
        exact (h.endSlew _).startSlew (by simpa using hst) hne (by simpa using hr)
      · exact h

theorem rateInRange_iff (t : TimeBase) (f : Int) : rateInRange t f = true ↔
    (-Config.freqLimit ≤ f ∧ f ≤ Config.freqLimit) ∧ ∀ sl, t.slew = some sl → (f.natAbs : Int) + 16 * sl.rate ≤ Config.rateLimit := by
  unfold rateInRange TimeBase.slewRate
  cases t.slew <;> simp

theorem State.TimeSound.ownSetRate (h : s.TimeSound) (p : List Byte) : (ownSetRate p s).1.TimeSound := by
  unfold Machine.ownSetRate
  simp only
  split
  · exact h
  · split
    · rename_i hr
      obtain ⟨hf, hslew⟩ := (rateInRange_iff _ _).mp hr
      refine h.setTime ⟨hf, h.base.p, h.base.steered, h.base.slewing, fun sl hsl => ?_⟩ rfl rfl rfl
      obtain ⟨hne, hlo, hhi, hr1, hr2, -, hdir⟩ := h.base.slew sl hsl
      exact ⟨hne, hlo, hhi, hr1, hr2, hslew sl hsl, hdir⟩
    · exact h

theorem State.TimeSound.ownConfigureReference (h : s.TimeSound) (p : List Byte) : (ownConfigureReference p s).1.TimeSound := by
  unfold Machine.ownConfigureReference
  split
  · exact h
  · rename_i q _
    have hm : (s.setMonitor q.ref { s.monitor q.ref with enable := q.enable, deskew := q.deskew, edge := q.edge }).TimeSound :=
      h.setMonitor rfl
    simp only
    split
    · exact hm
    · exact hm.changeAndEnd _ _ _ _ _

theorem DisciplineParams.parse_settle {p : List Byte} {d : DisciplineParams} (h : DisciplineParams.parse p = some d) : 1 ≤ d.settle := by
  unfold DisciplineParams.parse at h
  split at h
  · simp only [within, Bool.and_eq_true, decide_eq_true_iff] at h
    split at h
    · rename_i hc; injection h with h; rw [← h]; exact hc.1.1.2.1
    · exact nomatch h
  · exact nomatch h

theorem State.TimeSound.ownConfigureDiscipline (h : s.TimeSound) (p : List Byte) : (ownConfigureDiscipline p s).1.TimeSound := by
  unfold Machine.ownConfigureDiscipline
  split
  · exact h
  · split
    · exact h
    · rename_i d hd
      have hs : ({ s with discipline := { s.discipline with params := d } } : State).TimeSound :=
        ⟨h.base, h.following.congr rfl (fun _ => rfl) rfl rfl rfl, h.measuring.congr (fun _ => rfl) rfl, DisciplineParams.parse_settle hd⟩
      exact ((hs.timeoutMonitor .a).timeoutMonitor .b).expireHoldover

theorem State.TimeSound.ownTrack (h : s.TimeSound) (p : List Byte) : (ownTrack p s).1.TimeSound := by
  unfold Machine.ownTrack
  split
  · exact h
  · rename_i policy _
    have hc := h.completeSlew
    have hp : (s.completeSlew.setPolicy policy).Choosable := ⟨hc.base, hc.following.entry⟩
    exact hp.rechoose_timeSound (hc.measuring.congr (fun _ => rfl) rfl) hc.settle .track

theorem State.TimeSound.ownMeasure (h : s.TimeSound) (p : List Byte) : (ownMeasure p s).1.TimeSound := by
  unfold Machine.ownMeasure
  simp only
  split
  · exact h
  · split
    · exact h.endMeasure _
    · split
      · rename_i hn
        split
        · exact h
        · split
          · rename_i hq
            have hr : 2 ≤ byteAt p 1 ∧ byteAt p 1 ≤ 64 := by simpa [within] using hn
            refine h.setMeasurement ?_
            rintro _ ⟨⟩
            exact ⟨hq, hr.1, hr.2, by show 0 < byteAt p 1; omega, fun _ => rfl⟩
          · exact h
      · exact h

end

/-! ## The events of the other blocks -/

theorem SameTiming.grant (s : State) : SameTiming s s.grant := by
  unfold State.grant; repeat' split
  all_goals exact ⟨rfl, rfl, rfl⟩

theorem SameTiming.handOver (s : State) : SameTiming s s.handOver := by
  have taken : ∀ m, SameTiming s (s.freeClassifier.extractAndTake m) := by
    intro m
    unfold State.extractAndTake
    split
    · exact ⟨rfl, rfl, rfl⟩
    · exact SameTiming.trans (t := s.freeClassifier) ⟨rfl, rfl, rfl⟩ (Acts.takeArrival _ _ _).sameTiming
  unfold State.handOver
  split
  · exact .refl s
  · split
    · exact ⟨rfl, rfl, rfl⟩
    · exact taken _
    · exact taken _

theorem SameTiming.expireStats (s : State) : SameTiming s s.expireStats := by
  have offered : ∀ (u : State) (l : List FeedId) (v : State), SameTiming s v →
      SameTiming s (l.foldl (fun t i => t.offerNow (.stats (u.statsOf i))) v) := by
    intro u l
    induction l with
    | nil => exact fun v h => h
    | cons i l ih => exact fun v h => ih _ (h.trans ⟨rfl, rfl, rfl⟩)
  unfold State.expireStats
  split
  · split
    · exact offered _ _ _ ⟨rfl, rfl, rfl⟩
    · exact .refl s
  · exact .refl s

theorem SameTiming.completeRecord (s : State) : SameTiming s s.completeRecord := by
  unfold State.completeRecord
  simp only
  split
  · split
    · exact (SameTiming.linkBlind s).fetchLooks _ ⟨rfl, rfl, rfl⟩
    · exact ⟨rfl, rfl, rfl⟩
    · exact ⟨rfl, rfl, rfl⟩
  · exact .refl s

/-- A request to a line port leaves these blocks alone. -/
theorem SameTiming.of_line {f : List Byte → State → State × Reply} (h : ∀ p s, (f p s).1 = s ∨ ∃ i, LineActs i s (f p s).1) (p : List Byte)
    (s : State) : SameTiming s (f p s).1 := by
  rcases h p s with e | ⟨i, a⟩
  · rw [e]; exact .refl s
  · exact a.sameTiming

/-- A request to a feed leaves these blocks alone. -/
theorem SameTiming.of_feed {f : List Byte → State → State × Reply} (h : ∀ p s, ∃ i, Acts i s (f p s).1 ∧ Moves i s (f p s).1 0 0)
    (p : List Byte) (s : State) : SameTiming s (f p s).1 := by
  obtain ⟨i, a, -⟩ := h p s
  exact a.sameTiming

theorem SameTiming.ownWriteSelector (p : List Byte) (s : State) : SameTiming s (ownWriteSelector p s).1 := by
  unfold Machine.ownWriteSelector; split <;> exact ⟨rfl, rfl, rfl⟩

theorem SameTiming.ownClearSelector (p : List Byte) (s : State) : SameTiming s (ownClearSelector p s).1 := by
  unfold Machine.ownClearSelector; split <;> exact ⟨rfl, rfl, rfl⟩

theorem SameTiming.ownConfigureQueue (p : List Byte) (s : State) : SameTiming s (ownConfigureQueue p s).1 := by
  unfold Machine.ownConfigureQueue; simp only; split <;> exact ⟨rfl, rfl, rfl⟩

/-! ## O58 -/

/-- Every owning block keeps the time base, the monitors and the discipline unit sound. -/
theorem State.TimeSound.owners : OwnersKeep State.TimeSound where
  link _ _ h := h.same ⟨rfl, rfl, rfl⟩
  notices _ _ h := h.same ⟨rfl, rfl, rfl⟩
  enableLine p s h := h.same (.of_line LineActs.ownEnableLine p s)
  disableLine p s h := h.same (.of_line LineActs.ownDisableLine p s)
  configureLine p s h := h.same (.of_line LineActs.ownConfigureLine p s)
  writeSelector p s h := h.same (.ownWriteSelector p s)
  clearSelector p s h := h.same (.ownClearSelector p s)
  configureFeed p s h := h.same (.of_feed Acts.ownConfigureFeed p s)
  openFeed p s h := h.same (.of_feed Acts.ownOpenFeed p s)
  closeFeed p s h := h.same (.of_feed Acts.ownCloseFeed p s)
  setTime p _ h := h.ownSetTime p
  adjustTime p _ h := h.ownAdjustTime p
  slew p _ h := h.ownSlew p
  setRate p _ h := h.ownSetRate p
  configureReference p _ h := h.ownConfigureReference p
  configureDiscipline p _ h := h.ownConfigureDiscipline p
  track p _ h := h.ownTrack p
  measure p _ h := h.ownMeasure p
  configureQueue p s h := h.same (.ownConfigureQueue p s)

/-- Every event keeps the time base, the monitors and the discipline unit sound. -/
theorem State.TimeSound.events : EventsKeep State.TimeSound where
  toOwnersKeep := State.TimeSound.owners
  pins _ _ h := h.same ⟨rfl, rfl, rfl⟩
  portSignal i b s h := h.same (LineActs.portSignal i b s).sameTiming
  portStart i s h := h.same (LineActs.portStart i s).sameTiming
  portEnd i g b s h := h.same (LineActs.portEnd i g b s).sameTiming
  portQuiet i s h := h.same (LineActs.portQuiet i s).sameTiming
  grant s h := h.same (.grant s)
  handOver s h := h.same (.handOver s)
  expirePairing i s h := h.same (Acts.expirePairing i s).sameTiming
  expireGaps i s h := h.same (Acts.expireGaps i s).sameTiming
  expireCandidate i s h := h.same (Acts.expireCandidate i s).sameTiming
  expireSilence i l s h := h.same (Acts.expireSilence i l s).sameTiming
  expireStats s h := h.same (.expireStats s)
  takePulse r e _ h := h.takePulse r e
  timeoutMonitor r _ h := h.timeoutMonitor r
  expireHoldover _ h := h.expireHoldover
  completeSlew _ h := h.completeSlew
  completeRecord s h := h.same (.completeRecord s)
  fresh := State.fresh_timeSound
  restartBlocks _ h := h.same ⟨rfl, rfl, rfl⟩
  elapse _ h := h.elapse 1
  pending _ _ h := h.same ⟨rfl, rfl, rfl⟩

/-- Settles O58: the events of the time base, the monitors and the discipline unit keep the invariant, each re-choice restoring the part on the followed
reference, and no other event touches these blocks. -/
theorem stepKeepsTimeSound : Obligations.StepKeepsTimeSound :=
  fun _ _ h e => State.TimeSound.events.step h e

end Sys2Proof.Machine
end

section
/-! SUPPORT. The operations of the time base, the monitors and the discipline unit do not read the link, so a request to these blocks acts in the state its
frame found as it does behind the frame's arrival (R178 to R182). -/

namespace Sys2Proof.Machine

/-- The state with another link interface. -/
def State.withLink (l : LinkInterface) (s : State) : State := { s with link := l }

/-- An operation that neither reads nor changes the link interface. -/
def IgnoresLink (f : State → State) : Prop := ∀ s l, f (s.withLink l) = (f s).withLink l

/-- An owning block that neither reads nor changes the link interface. -/
def OwnIgnoresLink (own : State → State × Reply) : Prop := ∀ s l, own (s.withLink l) = ((own s).1.withLink l, (own s).2)

/-- An admitted request of an owning block that neither reads nor changes the link: what it does in the state the frame found, and its result queued
(R180 to R182). -/
theorem State.request_ignoring {s : State} {kind tag : Byte} {p : List Byte} {own : List Byte → State → State × Reply}
    (h : s.Admits kind p) (hi : OwnIgnoresLink (own p)) (hl : TimeActs s (own p s).1) :
    s.request kind own tag p = (own p s).1.replied kind tag (own p s).2 :=
  State.request_replied own h (hi s s.arrived.link) hl.same.link

/-- The command of such a request, admitted. -/
theorem whenReleased_request_ignoring {s : State} {kind tag : Byte} {p : List Byte} {own : List Byte → State → State × Reply}
    (h : s.Admits kind p) (hi : OwnIgnoresLink (own p)) (hl : TimeActs s (own p s).1) :
    whenReleased (State.request kind own tag p) s = .next ((own p s).1.replied kind tag (own p s).2) := by
  rw [whenReleased_of _ h.released, State.request_ignoring h hi hl]

/-! ## Slews, changes of state, steps -/

theorem IgnoresLink.endSlew (c : SlewEndCause) : IgnoresLink (State.endSlew c) := by
  intro s l
  cases h : s.time.slew with
  | none => rw [State.endSlew_of_none h]; exact State.endSlew_of_none (s := s.withLink l) h c
  | some sl => rw [State.endSlew_of h]; exact State.endSlew_of (s := s.withLink l) h c

theorem IgnoresLink.completeSlew : IgnoresLink State.completeSlew := by
  intro s l
  by_cases h : ∃ sl, s.time.slew = some sl ∧ sl.applied = sl.goal
  · obtain ⟨sl, hs, hg⟩ := h
    rw [State.completeSlew_of_goal hs hg, ← IgnoresLink.endSlew]
    exact State.completeSlew_of_goal (s := s.withLink l) hs hg
  · have hshort : ∀ sl, s.time.slew = some sl → sl.applied ≠ sl.goal := fun sl hs hg => h ⟨sl, hs, hg⟩
    rw [State.completeSlew_of_short hshort]
    exact State.completeSlew_of_short (s := s.withLink l) hshort

/-- A change of state, behind the end of a slew on entry into TRACKING (R121, R128). -/
theorem State.changeTime_eq (new : TimeState) (c : StateCause) (s : State) : s.changeTime new c =
    let u := if new = TimeState.tracking then s.endSlew .tracking else s
    ({ u with
        time := { u.time with state := new, p := 0 }
        discipline := { u.discipline with holdoverEntry := if new = TimeState.holdover then some u.now else none } }.offerNow
      (.state s.time.state new c)).raise .timeState (.timeState new) := rfl

/-- A change to FREE or HOLDOVER: the state and its record, nothing ended before them (R120, R121, R153). -/
theorem State.changeTime_of_ne_tracking {new : TimeState} (h : new ≠ .tracking) (c : StateCause) (s : State) : s.changeTime new c =
    ({ s with
        time := { s.time with state := new, p := 0 }
        discipline := { s.discipline with holdoverEntry := if new = TimeState.holdover then some s.now else none } }.offerNow
      (.state s.time.state new c)).raise .timeState (.timeState new) := by
  rw [State.changeTime_eq, if_neg h]

theorem IgnoresLink.changeTime (new : TimeState) (c : StateCause) : IgnoresLink (State.changeTime new c) := by
  intro s l
  have hu : (if new = .tracking then (s.withLink l).endSlew .tracking else s.withLink l) =
      (if new = .tracking then s.endSlew .tracking else s).withLink l := by
    split
    · exact IgnoresLink.endSlew _ s l
    · rfl
  rw [State.changeTime_eq, State.changeTime_eq, hu]
  rfl

theorem IgnoresLink.stepTo (c : StepCause) (v : TimeValue) : IgnoresLink (State.stepTo c v) := by
  intro s l
  unfold State.stepTo
  simp only [IgnoresLink.completeSlew s l]
  rw [← IgnoresLink.endSlew]
  rfl

/-! ## The re-choice, the monitors, the holdover timer -/

/-- A reference followed, or none, in another's place, with the SWITCH record (R147). -/
def State.switchTo (e : ChoiceEvent) (new : Option RefId) (s : State) : State :=
  { s with discipline := { s.discipline with followed := new } }.offerNow (.switch s.discipline.followed new (switchCause e new))

section
variable {s : State} {new : Option RefId}

/-- A reference that takes another's place in TRACKING sets p to 0 (R148). -/
theorem State.follow_replaced (h : new ≠ s.discipline.followed)
    (ht : s.time.state = .tracking ∧ s.discipline.followed.isSome = true ∧ new.isSome = true) (e : ChoiceEvent) :
    s.follow e new = { s.switchTo e new with time := { s.time with p := 0 } } := by
  unfold State.follow; rw [if_neg h]; exact if_pos ht

theorem State.follow_switched (h : new ≠ s.discipline.followed)
    (ht : ¬ (s.time.state = .tracking ∧ s.discipline.followed.isSome = true ∧ new.isSome = true)) (e : ChoiceEvent) :
    s.follow e new = s.switchTo e new := by
  unfold State.follow; rw [if_neg h]; exact if_neg ht

end

theorem IgnoresLink.follow (e : ChoiceEvent) (new : Option RefId) : IgnoresLink (State.follow e new) := by
  intro s l
  by_cases h : new = s.discipline.followed
  · rw [State.follow_same h]; exact State.follow_same (s := s.withLink l) h e
  · by_cases ht : s.time.state = .tracking ∧ s.discipline.followed.isSome = true ∧ new.isSome = true
    · rw [State.follow_replaced h ht]; exact State.follow_replaced (s := s.withLink l) h ht e
    · rw [State.follow_switched h ht]; exact State.follow_switched (s := s.withLink l) h ht e

theorem IgnoresLink.moveState : IgnoresLink State.moveState := by
  intro s l
  rcases s.moveState_cases with ⟨e, ht, hp⟩ | ⟨e, hf, hs⟩ | ⟨e, hf, hs, hp⟩ | ⟨e, hf, hs, hp⟩ <;> rw [e]
  · exact State.moveState_kept (s := s.withLink l) ht hp
  · obtain ⟨r, hf⟩ := Option.isSome_iff_exists.mp hf
    rw [← IgnoresLink.changeTime]; exact State.moveState_followed (s := s.withLink l) hf hs
  · rw [← IgnoresLink.changeTime]; exact State.moveState_lost (s := s.withLink l) hf hs hp
  · rw [← IgnoresLink.changeTime]; exact State.moveState_policyNone (s := s.withLink l) hf hs hp

theorem IgnoresLink.rechoose (e : ChoiceEvent) : IgnoresLink (State.rechoose e) := by
  intro s l
  have hc : (s.withLink l).choice = s.choice := rfl
  unfold State.rechoose
  rw [hc, IgnoresLink.follow, IgnoresLink.moveState]

theorem IgnoresLink.endMeasure (c : MeasureCause) : IgnoresLink (State.endMeasure c) := by
  intro s l
  unfold State.endMeasure
  have hm : (s.withLink l).discipline.measurement = s.discipline.measurement := rfl
  rw [hm]
  cases s.discipline.measurement <;> rfl

theorem IgnoresLink.endMeasureOn (r : RefId) (c : MeasureCause) : IgnoresLink (State.endMeasureOn r c) := by
  intro s l
  unfold State.endMeasureOn
  have hm : (s.withLink l).discipline.measurement = s.discipline.measurement := rfl
  rw [hm, IgnoresLink.endMeasure]
  split
  · split <;> rfl
  · rfl

theorem IgnoresLink.loseMonitor (r : RefId) (c : MonitorCause) : IgnoresLink (State.loseMonitor r c) := by
  intro s l
  have hc : (s.withLink l).changeMonitor r .absent c = (s.changeMonitor r .absent c).withLink l := rfl
  unfold State.loseMonitor
  rw [hc, IgnoresLink.rechoose, IgnoresLink.endMeasureOn]

theorem IgnoresLink.timeoutMonitor (r : RefId) : IgnoresLink (State.timeoutMonitor r) := by
  intro s l
  have hd : due ((s.withLink l).timeoutDeadline r) (s.withLink l).now = due (s.timeoutDeadline r) s.now := rfl
  unfold State.timeoutMonitor
  rw [hd, IgnoresLink.loseMonitor]
  split <;> rfl

theorem IgnoresLink.expireHoldover : IgnoresLink State.expireHoldover := by
  intro s l
  have hd : due (s.withLink l).holdoverDeadline (s.withLink l).now = due s.holdoverDeadline s.now := rfl
  unfold State.expireHoldover
  rw [hd, IgnoresLink.changeTime]
  split <;> rfl

/-! ## The owning blocks -/

theorem OwnIgnoresLink.ownSetTime (p : List Byte) : OwnIgnoresLink (ownSetTime p) := by
  intro s l
  have ht : (s.withLink l).time.state = s.time.state := rfl
  unfold Machine.ownSetTime
  cases TimeValue.parse p with
  | none => rfl
  | some v =>
    simp only [IgnoresLink.stepTo _ _ s l, IgnoresLink.changeTime _ _ _ l, ht]
    split <;> rfl

theorem OwnIgnoresLink.ownAdjustTime (p : List Byte) : OwnIgnoresLink (ownAdjustTime p) := by
  intro s l
  have ht : (s.withLink l).time = s.time := rfl
  unfold Machine.ownAdjustTime State.stepBy
  simp only [IgnoresLink.stepTo _ _ s l, ht]
  split
  · rfl
  · split <;> rfl

theorem OwnIgnoresLink.ownSlew (p : List Byte) : OwnIgnoresLink (ownSlew p) := by
  intro s l
  have ht : (s.withLink l).time = s.time := rfl
  unfold Machine.ownSlew
  simp only [IgnoresLink.endSlew _ s l, ht]
  split
  · rfl
  · split
    · rfl
    · split <;> rfl

theorem OwnIgnoresLink.ownSetRate (p : List Byte) : OwnIgnoresLink (ownSetRate p) := by
  intro s l
  have ht : (s.withLink l).time = s.time := rfl
  unfold Machine.ownSetRate
  simp only [ht]
  split
  · rfl
  · split <;> rfl

section
variable {s : State} {p : List Byte}

theorem ownConfigureDiscipline_tracking (h : s.time.state = .tracking) : ownConfigureDiscipline p s = (s, .bare .state) := if_pos h

theorem ownConfigureDiscipline_out_of_range (h : s.time.state ≠ .tracking) (hp : DisciplineParams.parse p = none) :
    ownConfigureDiscipline p s = (s, .bare .range) := by
  unfold Machine.ownConfigureDiscipline; rw [if_neg h, hp]

/-- The parameters taken, and the expiries that they bring, in their order (R145, R153). -/
theorem ownConfigureDiscipline_taken (h : s.time.state ≠ .tracking) {d : DisciplineParams} (hp : DisciplineParams.parse p = some d) :
    ownConfigureDiscipline p s =
      (((({ s with discipline := { s.discipline with params := d } } : State).timeoutMonitor .a).timeoutMonitor .b).expireHoldover,
        .ok []) := by
  unfold Machine.ownConfigureDiscipline; rw [if_neg h, hp]

end

theorem OwnIgnoresLink.ownConfigureDiscipline (p : List Byte) : OwnIgnoresLink (ownConfigureDiscipline p) := by
  intro s l
  by_cases ht : s.time.state = .tracking
  · rw [ownConfigureDiscipline_tracking ht]; exact ownConfigureDiscipline_tracking (s := s.withLink l) ht
  · cases hp : DisciplineParams.parse p with
    | none => rw [ownConfigureDiscipline_out_of_range ht hp]; exact ownConfigureDiscipline_out_of_range (s := s.withLink l) ht hp
    | some d =>
      rw [ownConfigureDiscipline_taken ht hp, ownConfigureDiscipline_taken (s := s.withLink l) ht hp, ← IgnoresLink.expireHoldover,
        ← IgnoresLink.timeoutMonitor, ← IgnoresLink.timeoutMonitor]
      rfl

theorem OwnIgnoresLink.ownTrack (p : List Byte) : OwnIgnoresLink (ownTrack p) := by
  intro s l
  unfold Machine.ownTrack
  cases Policy.ofCode (byteAt p 0) with
  | none => rfl
  | some policy =>
    have hp : ∀ u : State, (u.withLink l).setPolicy policy = (u.setPolicy policy).withLink l := fun _ => rfl
    simp only [IgnoresLink.completeSlew s l, hp, IgnoresLink.rechoose _ _ l]
    rfl

end Sys2Proof.Machine
end

section
/-! SUPPORT. The time base as the statements spell it out: the tick, steps, slews and rates (R115 to R130): O2, O31, O32 and O33. -/

namespace Sys2Proof.Machine

/-! ## The tick (R115, R117, R127) -/

/-- A number of quarter-nanoseconds below the modulus is that of its time value (R3). -/
theorem TimeValue.toQuarters_ofQuarters {n : Nat} (h : n < timeModulus) : (TimeValue.ofQuarters n).toQuarters = n := by
  have hm : timeModulus = 2 ^ 48 * 4000000000 := rfl
  simp only [TimeValue.ofQuarters, TimeValue.toQuarters, BitVec.toNat_ofNat, Fin.val_ofNat]
  omega

/-- The time value after n nanoseconds, exact to its smallest unit (R115). -/
theorem TimeBase.units_advance (t : TimeBase) (n : Nat) :
    (t.advance n).units = (t.units + t.advanceUnits n) % (timeModulus * Config.unitsPerQuarter : Nat) := by
  have hq : Config.unitsPerQuarter = 4000000000 := rfl
  have hpos : (0 : Int) < (timeModulus * Config.unitsPerQuarter : Nat) := by decide
  have h0 := Int.emod_nonneg (t.units + t.advanceUnits n) hpos.ne'
  have hlt := Int.emod_lt_of_pos (t.units + t.advanceUnits n) hpos
  obtain ⟨u, hu⟩ := Int.eq_ofNat_of_zero_le h0
  have hdiv : u / Config.unitsPerQuarter < timeModulus := Nat.div_lt_of_lt_mul (by rw [mul_comm]; omega)
  have hv : (t.advance n).value = .ofQuarters (u / Config.unitsPerQuarter) := by
    simp only [TimeBase.advance, hu, Int.toNat_natCast]
  have hs : (t.advance n).sub = Fin.ofNat 4000000000 u := by simp only [TimeBase.advance, hu, Int.toNat_natCast]
  rw [hu, TimeBase.units, hv, hs, TimeValue.toQuarters_ofQuarters hdiv, Fin.val_ofNat, hq]
  omega

section
variable {t : TimeBase} {sl : SlewFlight}

theorem SlewFlight.term_up (h : 0 < sl.requested) : sl.term = 16 * sl.rate := if_pos h

theorem SlewFlight.term_down (h : sl.requested < 0) : sl.term = -(16 * sl.rate) := if_neg (by omega)

theorem SlewFlight.appliedAfter_up (h : 0 < sl.requested) : sl.appliedAfter 1 = min (sl.applied + 16 * sl.rate) sl.goal := by
  unfold SlewFlight.appliedAfter
  rw [if_pos h, SlewFlight.term_up h, Nat.cast_one, one_mul]

theorem SlewFlight.appliedAfter_down (h : sl.requested < 0) : sl.appliedAfter 1 = max (sl.applied - 16 * sl.rate) sl.goal := by
  unfold SlewFlight.appliedAfter
  rw [if_neg (by omega), SlewFlight.term_down h, Nat.cast_one, one_mul, ← sub_eq_add_neg]

theorem TimeBase.advanceUnits_noSlew (h : t.slew = none) : t.advanceUnits 1 = 16000000000 + t.rateOffset := by
  simp [TimeBase.advanceUnits, TimeBase.slewExcess, h]

theorem TimeBase.advanceUnits_slew (h : t.slew = some sl) :
    t.advanceUnits 1 = 16000000000 + t.rateOffset - (sl.applied + sl.term - sl.appliedAfter 1) := by
  simp [TimeBase.advanceUnits, TimeBase.slewExcess, h]

end

theorem State.elapse_released {s : State} (h : s.resetHold.held = false) (n : Nat) :
    s.elapse n = { s with time := s.time.advance n } := by
  unfold State.elapse; rw [h]; rfl

/-- Settles O2: the step is the advance of the time base by one nanosecond, a slew toward either sign stopping at its goal. -/
theorem emptyQueueStepIsOneTick : Obligations.EmptyQueueStepIsOneTick := by
  intro s hp hr he
  have hunits := s.time.units_advance 1
  refine ⟨{ s with time := s.time.advance 1 }, ?_, rfl, rfl, rfl, rfl, rfl, rfl, fun hs => ⟨?_, ?_⟩, fun sl hs hup => ?_,
    fun sl hs hdown => ?_⟩
  · rw [step_tick hp hr he, State.elapse_released hr]
  · show s.time.slew.map (SlewFlight.advance 1) = none
    rw [hs]; rfl
  · rw [hunits, TimeBase.advanceUnits_noSlew hs, add_assoc]
  · refine ⟨sl.appliedAfter 1, SlewFlight.appliedAfter_up hup, ?_, ?_⟩
    · show s.time.slew.map (SlewFlight.advance 1) = _
      rw [hs]; rfl
    · rw [hunits, TimeBase.advanceUnits_slew hs, SlewFlight.term_up hup, ← add_sub_assoc, ← add_assoc]
  · refine ⟨sl.appliedAfter 1, SlewFlight.appliedAfter_down hdown, ?_, ?_⟩
    · show s.time.slew.map (SlewFlight.advance 1) = _
      rw [hs]; rfl
    · rw [hunits, TimeBase.advanceUnits_slew hs, SlewFlight.term_down hdown, ← sub_eq_add_neg, ← add_sub_assoc, ← add_assoc]

/-! ## Signed fields and time values of a payload (R195, R198) -/

/-- A signed field in front of others reads back as it was written (R195). -/
theorem signedAt_leSigned_append {n : Nat} {v : Int} (hn : 0 < n) (h1 : -(2 ^ (8 * n - 1) : Nat) ≤ v) (h2 : v < (2 ^ (8 * n - 1) : Nat))
    (rest : List Byte) : signedAt (leSigned n v ++ rest) 0 n = v := by
  unfold signedAt
  rw [List.drop_zero, List.take_left' (length_leSigned n v), leInt_leSigned hn h1 h2]

theorem signedAt_leSigned {n : Nat} {v : Int} (hn : 0 < n) (h1 : -(2 ^ (8 * n - 1) : Nat) ≤ v) (h2 : v < (2 ^ (8 * n - 1) : Nat)) :
    signedAt (leSigned n v) 0 n = v := by
  have h := signedAt_leSigned_append hn h1 h2 []
  rwa [List.append_nil] at h

/-- A time value reads back from its block (R123, R195). -/
theorem TimeValue.parse_block (v : TimeValue) : TimeValue.parse v.block = some v := by
  have hsec : fieldAt v.block 0 8 = v.seconds.toNat := by
    simp only [TimeValue.block, List.append_assoc, fieldAt_leBytes_append]
    exact Nat.mod_eq_of_lt (by have := v.seconds.isLt; omega)
  have hnano : fieldAt v.block 8 4 = v.nanos.val := by
    simp only [TimeValue.block, List.append_assoc, fieldAt_behind, fieldAt_leBytes_append, Nat.reduceLeDiff, Nat.reduceSub]
    exact Nat.mod_eq_of_lt (by have := v.nanos.isLt; omega)
  have hquarter : fieldAt v.block 12 1 = v.quarters.val := by
    simp only [TimeValue.block, List.append_assoc, fieldAt_behind, fieldAt_leBytes, Nat.reduceLeDiff, Nat.reduceSub]
    exact Nat.mod_eq_of_lt (by have := v.quarters.isLt; omega)
  unfold TimeValue.parse
  rw [hsec, hnano, hquarter, if_pos ⟨v.seconds.isLt, by have := v.nanos.isLt; omega, by have := v.quarters.isLt; omega⟩]
  simp

/-! ## The end of a slew, as the statements write it (R128, R134) -/

theorem SlewFlight.goal_eq (sl : SlewFlight) : sl.goal = sl.requested * 4000000000 := rfl

/-- A slew at its goal has applied what was requested, in whole quarter-nanoseconds (R134). -/
theorem SlewFlight.appliedQuarters_of_goal {sl : SlewFlight} (h : sl.applied = sl.requested * 4000000000) :
    sl.appliedQuarters = sl.requested := by
  unfold SlewFlight.appliedQuarters
  rw [h]
  exact Int.mul_tdiv_cancel _ (by decide)

section
variable {s : State} {sl : SlewFlight}

/-- A slew at its goal ends COMPLETE, whatever ends it (R127, R134; log 27). -/
theorem State.endSlew_at_goal (hs : s.time.slew = some sl) (hg : sl.applied = sl.requested * 4000000000) (c : SlewEndCause) :
    s.endSlew c = ({ s with time := { s.time with slew := none } }.offerNow
      (.slewEnd .complete sl.requested sl.requested sl.rate)).raise .opDone .empty := by
  rw [State.endSlew_of hs, SlewFlight.endCause, if_pos (show sl.applied = sl.goal from hg), SlewFlight.appliedQuarters_of_goal hg]

theorem State.endSlew_short (hs : s.time.slew = some sl) (hn : sl.applied ≠ sl.requested * 4000000000) (c : SlewEndCause) :
    s.endSlew c = ({ s with time := { s.time with slew := none } }.offerNow
      (.slewEnd c sl.requested (sl.applied.tdiv 4000000000) sl.rate)).raise .opDone .empty := by
  rw [State.endSlew_of hs, SlewFlight.endCause, if_neg (show ¬ sl.applied = sl.goal from hn)]
  rfl

theorem State.completeSlew_none (hs : s.time.slew = none) : s.completeSlew = s :=
  State.completeSlew_of_short fun _ h => nomatch hs.symm.trans h

theorem State.completeSlew_short_of (hs : s.time.slew = some sl) (hn : sl.applied ≠ sl.requested * 4000000000) : s.completeSlew = s := by
  refine State.completeSlew_of_short fun sl' h => ?_
  rw [← Option.some.inj (hs.symm.trans h)]
  exact hn

theorem State.completeSlew_at_goal (hs : s.time.slew = some sl) (hg : sl.applied = sl.requested * 4000000000) :
    s.completeSlew = ({ s with time := { s.time with slew := none } }.offerNow
      (.slewEnd .complete sl.requested sl.requested sl.rate)).raise .opDone .empty := by
  rw [State.completeSlew_of_goal hs hg, State.endSlew_at_goal hs hg]

/-! ## Steps (R118, R122) -/

/-- The value, the epoch and the STEP record of a step, with what slew there is left in flight (R122). -/
def State.leap (c : StepCause) (v : TimeValue) (s : State) : State :=
  { s with time := { s.time with value := v, sub := 0, epoch := s.time.epoch + 1 } }.offerNow
    (.step c s.time.value v (s.time.epoch + 1))

/-- Where no completion is due a step is the leap and, behind it, the end of the slew (R122, R129). -/
theorem State.stepTo_of_no_completion (h : s.completeSlew = s) (c : StepCause) (v : TimeValue) :
    s.stepTo c v = (s.leap c v).endSlew .stepped := by
  unfold State.stepTo
  simp only [h]
  rfl

theorem State.stepTo_noSlew (hs : s.time.slew = none) (c : StepCause) (v : TimeValue) : s.stepTo c v = s.leap c v := by
  rw [State.stepTo_of_no_completion (State.completeSlew_none hs), State.endSlew_of_none (s := s.leap c v) hs]

theorem State.stepTo_short (hs : s.time.slew = some sl) (hn : sl.applied ≠ sl.requested * 4000000000) (c : StepCause) (v : TimeValue) :
    s.stepTo c v = ({ s.leap c v with time := { (s.leap c v).time with slew := none } }.offerNow
      (.slewEnd .stepped sl.requested (sl.applied.tdiv 4000000000) sl.rate)).raise .opDone .empty := by
  rw [State.stepTo_of_no_completion (State.completeSlew_short_of hs hn), State.endSlew_short (s := s.leap c v) hs hn]

/-- A completion that is due comes first, and the step finds no slew in flight (R129, log 27). -/
theorem State.stepTo_at_goal {w : State} (hs : s.time.slew = some sl) (hg : sl.applied = sl.requested * 4000000000)
    (hw : w = ({ s with time := { s.time with slew := none } }.offerNow
      (.slewEnd .complete sl.requested sl.requested sl.rate)).raise .opDone .empty) (c : StepCause) (v : TimeValue) :
    s.stepTo c v = { w with time := { w.time with value := v, sub := 0, epoch := s.time.epoch + 1 } }.offerNow
      (.step c s.time.value v (s.time.epoch + 1)) := by
  have hc : s.completeSlew = w := (State.completeSlew_at_goal hs hg).trans hw.symm
  have hnone : w.time.slew = none := by rw [hw]; rfl
  have hepoch : w.time.epoch = s.time.epoch := by rw [hw]; rfl
  unfold State.stepTo
  simp only [hc, hepoch]
  exact State.endSlew_of_none (by exact hnone) _

end

/-! ## SET TIME and ADJUST TIME (R123, R124) -/

section
variable {s : State} {p : List Byte}

theorem ownSetTime_set {v : TimeValue} (hp : TimeValue.parse p = some v) (hs : s.time.state ≠ .unset) :
    ownSetTime p s = (s.stepTo .set v, .ok []) := by
  unfold ownSetTime; simp only [hp, if_neg hs]

theorem ownSetTime_unset {v : TimeValue} (hp : TimeValue.parse p = some v) (hs : s.time.state = .unset) :
    ownSetTime p s = ((s.stepTo .set v).changeTime .free .timeSet, .ok []) := by
  unfold ownSetTime; simp only [hp, if_pos hs]

theorem ownAdjustTime_range {d : Int} (hd : signedAt p 0 8 = d) (h : d < -(2 ^ 42) ∨ 2 ^ 42 < d) :
    ownAdjustTime p s = (s, .bare .range) := by
  subst hd; exact if_pos h

theorem ownAdjustTime_unset {d : Int} (hd : signedAt p 0 8 = d) (h1 : -(2 ^ 42) ≤ d) (h2 : d ≤ 2 ^ 42) (hs : s.time.state = .unset) :
    ownAdjustTime p s = (s, .bare .state) := by
  have hr : ¬ (d < -maxAdjust ∨ maxAdjust < d) := not_or.mpr ⟨not_lt.mpr h1, not_lt.mpr h2⟩
  unfold ownAdjustTime; simp only [hd, if_neg hr, if_pos hs]

theorem ownAdjustTime_stepped {d : Int} (hd : signedAt p 0 8 = d) (h1 : -(2 ^ 42) ≤ d) (h2 : d ≤ 2 ^ 42) (hs : s.time.state ≠ .unset) :
    ownAdjustTime p s = (s.stepTo .adjust (s.time.value.add d), .ok []) := by
  have hr : ¬ (d < -maxAdjust ∨ maxAdjust < d) := not_or.mpr ⟨not_lt.mpr h1, not_lt.mpr h2⟩
  unfold ownAdjustTime; simp only [hd, if_neg hr, if_neg hs]; rfl

theorem exec_setTime_admitted (ha : s.Admits 0x18 p) (tag : Byte) :
    exec (.setTime tag p) s = .next ((ownSetTime p s).1.replied 0x18 tag (ownSetTime p s).2) :=
  whenReleased_request_ignoring ha (.ownSetTime p) (.ownSetTime p s)

theorem exec_adjustTime_admitted (ha : s.Admits 0x19 p) (tag : Byte) :
    exec (.adjustTime tag p) s = .next ((ownAdjustTime p s).1.replied 0x19 tag (ownAdjustTime p s).2) :=
  whenReleased_request_ignoring ha (.ownAdjustTime p) (.ownAdjustTime p s)

end

/-- Settles O31: one step for each state of the slew, behind the payload read back and the refusals. -/
theorem timeIsStepped : Obligations.TimeIsStepped := by
  intro s v d tag u hu
  have hleap : u = s.leap .set v := hu
  refine ⟨fun ha => ?_, fun ha h1 h2 => ?_⟩
  · have hp := v.parse_block
    rw [exec_setTime_admitted ha]
    refine ⟨fun hs hn => ?_, fun sl hs hn hg => ?_, fun sl w hs hn hg hw => ?_, fun hs hn => ?_⟩
    · rw [ownSetTime_set hp hs, State.stepTo_noSlew hn, hleap]
    · rw [ownSetTime_set hp hs, State.stepTo_short hn hg, hleap]
    · rw [ownSetTime_set hp hs, State.stepTo_at_goal hn hg hw]
    · have hst : u.time.state = .unset := by rw [hleap]; exact hs
      rw [ownSetTime_unset hp hs, State.stepTo_noSlew hn, ← hleap, State.changeTime_of_ne_tracking (by decide), hst, hleap]; rfl
  · have hp : signedAt (leSigned 8 d) 0 8 = d := signedAt_leSigned (by decide) h1 h2
    rw [exec_adjustTime_admitted ha]
    refine ⟨fun hlo hhi hs hn => ?_, fun sl hlo hhi hs hn hg => ?_, fun sl w hlo hhi hs hn hg hw => ?_, fun hr => ?_, fun hlo hhi hs => ?_⟩
    · rw [ownAdjustTime_stepped hp hlo hhi hs, State.stepTo_noSlew hn]; rfl
    · rw [ownAdjustTime_stepped hp hlo hhi hs, State.stepTo_short hn hg]; rfl
    · rw [ownAdjustTime_stepped hp hlo hhi hs, State.stepTo_at_goal hn hg hw]
    · rw [ownAdjustTime_range hp hr]
    · rw [ownAdjustTime_unset hp hlo hhi hs]

/-! ## SLEW (R126 to R128, R134) -/

section
variable {s : State} {p : List Byte}

theorem ownSlew_state (h : s.time.state = .unset ∨ s.time.state = .tracking) : ownSlew p s = (s, .bare .state) := if_pos h

theorem ownSlew_cancels (h : ¬ (s.time.state = .unset ∨ s.time.state = .tracking)) (ha : signedAt p 0 4 = 0) :
    ownSlew p s = (s.endSlew .cancelled, .ok []) := by
  unfold ownSlew; simp only [if_neg h, if_pos ha]

theorem ownSlew_starts (h : ¬ (s.time.state = .unset ∨ s.time.state = .tracking)) {amount : Int} {rate : Nat}
    (ha : signedAt p 0 4 = amount) (hr : fieldAt p 4 4 = rate) (hne : amount ≠ 0) (hin : slewInRange s.time.f amount rate = true) :
    ownSlew p s = ((s.endSlew .replaced).startSlew amount rate, .ok []) := by
  subst ha hr; unfold ownSlew; simp only [if_neg h, if_neg hne, if_pos hin]

theorem ownSlew_range (h : ¬ (s.time.state = .unset ∨ s.time.state = .tracking)) {amount : Int} {rate : Nat}
    (ha : signedAt p 0 4 = amount) (hr : fieldAt p 4 4 = rate) (hne : amount ≠ 0) (hout : ¬ slewInRange s.time.f amount rate = true) :
    ownSlew p s = (s, .bare .range) := by
  subst ha hr; unfold ownSlew; simp only [if_neg h, if_neg hne, if_neg hout]

theorem exec_slew_admitted (ha : s.Admits 0x1A p) (tag : Byte) :
    exec (.slew tag p) s = .next ((ownSlew p s).1.replied 0x1A tag (ownSlew p s).2) :=
  whenReleased_request_ignoring ha (.ownSlew p) (.ownSlew p s)

theorem exec_setRate_admitted (ha : s.Admits 0x1B p) (tag : Byte) :
    exec (.setRate tag p) s = .next ((ownSetRate p s).1.replied 0x1B tag (ownSetRate p s).2) :=
  whenReleased_request_ignoring ha (.ownSetRate p) (.ownSetRate p s)

end

theorem exec_slewComplete_released {s : State} (h : s.resetHold.held = false) : exec .slewComplete s = .next s.completeSlew :=
  whenReleased_of _ h

/-- The ranges of R126 as the statements write them. -/
theorem slewInRange_iff_ranges (f amount : Int) (rate : Nat) : slewInRange f amount rate = true ↔
    -2000000000 ≤ amount ∧ amount ≤ 2000000000 ∧ 1 ≤ rate ∧ rate ≤ 200000 ∧ f.natAbs + 16 * rate ≤ 3200000 := by
  have hm : maxSlew = 2000000000 := rfl
  have hl : Config.rateLimit = 3200000 := rfl
  rw [slewInRange_iff, hm, hl]
  omega

/-- What a slew short of its goal reports lies from 0 up to a quarter-nanosecond less than was requested (R134). -/
theorem SlewFlight.Sound.reported {f : Int} {sl : SlewFlight} (h : sl.Sound f) (hn : sl.applied ≠ sl.requested * 4000000000) :
    (0 < sl.requested → 0 ≤ sl.applied.tdiv 4000000000 ∧ sl.applied.tdiv 4000000000 ≤ sl.requested - 1) ∧
      (sl.requested < 0 → sl.requested + 1 ≤ sl.applied.tdiv 4000000000 ∧ sl.applied.tdiv 4000000000 ≤ 0) := by
  obtain ⟨-, -, -, -, -, -, hup, hdown⟩ := h
  rw [SlewFlight.goal_eq] at hup hdown
  refine ⟨fun hpos => ?_, fun hneg => ?_⟩
  · obtain ⟨h0, hg⟩ := hup hpos
    rw [Int.tdiv_eq_ediv_of_nonneg h0]
    omega
  · obtain ⟨hg, h0⟩ := hdown hneg
    have hneg' : sl.applied.tdiv 4000000000 = -((-sl.applied) / 4000000000) := by
      rw [← Int.tdiv_eq_ediv_of_nonneg (by omega), Int.neg_tdiv, neg_neg]
    rw [hneg']
    omega

/-- The SLEW_END record of a slew that ends for a cause, as the statements write it (R128, R134; log 27). -/
theorem State.endSlew_reported {s : State} {sl : SlewFlight} (hs : s.time.slew = some sl) (c : SlewEndCause) :
    s.endSlew c = ({ s with time := { s.time with slew := none } }.offerNow
      (.slewEnd (if sl.applied = sl.requested * 4000000000 then .complete else c) sl.requested
        (sl.applied.tdiv 4000000000) sl.rate)).raise .opDone .empty := State.endSlew_of hs c

/-- Settles O32: the refusals of SLEW, a cancel, a start with and without a slew in flight; the completion; and the bound of R134. -/
theorem slewStartsAndEnds : Obligations.SlewStartsAndEnds := by
  refine ⟨fun s amount rate tag ha h1 h2 h3 => ?_, fun s hr => ⟨fun sl hs hg => ?_, fun sl hs hn => ?_, fun hs => ?_⟩,
    fun s sl h hs hn => (h.base.slew sl hs).reported hn⟩
  · have hamount : signedAt (leSigned 4 amount ++ leBytes 4 rate) 0 4 = amount := signedAt_leSigned_append (by decide) h1 h2 _
    have hrate : fieldAt (leSigned 4 amount ++ leBytes 4 rate) 4 4 = rate := by
      rw [leSigned, fieldAt_behind (by decide), fieldAt_leBytes]; exact Nat.mod_eq_of_lt h3
    rw [exec_slew_admitted ha]
    refine ⟨fun hs => ?_, fun hs => ?_⟩
    · rw [ownSlew_state hs]
    · have hfree : ¬ (s.time.state = .unset ∨ s.time.state = .tracking) := by rcases hs with hs | hs <;> simp [hs]
      refine ⟨fun h0 hn => ?_, fun sl h0 hsl => ?_, fun hne hin => ⟨fun hn => ?_, fun sl hsl => ?_⟩, fun hne hout => ?_⟩
      · rw [ownSlew_cancels hfree (hamount.trans h0), State.endSlew_of_none hn]
      · rw [ownSlew_cancels hfree (hamount.trans h0), State.endSlew_reported hsl]
      · rw [ownSlew_starts hfree hamount hrate hne ((slewInRange_iff_ranges _ _ _).mpr hin), State.endSlew_of_none hn]; rfl
      · rw [ownSlew_starts hfree hamount hrate hne ((slewInRange_iff_ranges _ _ _).mpr hin), State.endSlew_reported hsl]; rfl
      · rw [ownSlew_range hfree hamount hrate hne (mt (slewInRange_iff_ranges _ _ _).mp hout)]
  · rw [exec_slewComplete_released hr, State.completeSlew_at_goal hs hg]
  · rw [exec_slewComplete_released hr, State.completeSlew_short_of hs hn]
  · rw [exec_slewComplete_released hr, State.completeSlew_none hs]

/-! ## SET RATE (R130) -/

/-- The limits of R130 as the statements write them. -/
theorem rateInRange_iff_limits (t : TimeBase) (f : Int) : rateInRange t f = true ↔
    f.natAbs ≤ 100000 * 16 ∧ ∀ sl, t.slew = some sl → f.natAbs + 16 * sl.rate ≤ 200000 * 16 := by
  have hf : Config.freqLimit = 1600000 := rfl
  have hl : Config.rateLimit = 3200000 := rfl
  rw [rateInRange_iff, hf, hl]
  refine and_congr (by omega) (forall_congr' fun sl => forall_congr' fun _ => by omega)

/-- Settles O33: TRACKING, the limits exceeded, and f replaced within them. -/
theorem rateIsSet : Obligations.RateIsSet := by
  intro s f tag ha h1 h2
  have hf : signedAt (leSigned 4 f) 0 4 = f := signedAt_leSigned (by decide) h1 h2
  rw [exec_setRate_admitted ha]
  refine ⟨fun hs => ?_, fun hs => ⟨fun hout => ?_, fun hlim hslew => ?_⟩⟩
  · rw [show ownSetRate (leSigned 4 f) s = (s, .bare .state) from if_pos hs]
  · have hr : ¬ rateInRange s.time f = true := by
      rw [rateInRange_iff_limits]
      rintro ⟨hle, hall⟩
      rcases hout with h | ⟨sl, hsl, h⟩
      · omega
      · have := hall sl hsl; omega
    unfold ownSetRate; simp only [if_neg hs, hf, if_neg hr]
  · have hr := (rateInRange_iff_limits s.time f).mpr ⟨hlim, hslew⟩
    unfold ownSetRate; simp only [if_neg hs, hf, if_pos hr]

end Sys2Proof.Machine
end

section
/-! SUPPORT. The re-choice, the discipline requests, the holdover timer and the restart as the statements spell them out (R137, R145 to R148, R153, R157, R191):
O6, O35, O38 and O40. -/

namespace Sys2Proof.Machine

/-! ## Events and requests of a released part -/

theorem exec_holdoverTimerExpiry_released {s : State} (h : s.resetHold.held = false) :
    exec .holdoverTimerExpiry s = .next s.expireHoldover := whenReleased_of _ h

section
variable {s : State} {p : List Byte}

theorem exec_configureDiscipline_admitted (ha : s.Admits 0x21 p) (tag : Byte) : exec (.configureDiscipline tag p) s =
    .next ((ownConfigureDiscipline p s).1.replied 0x21 tag (ownConfigureDiscipline p s).2) :=
  whenReleased_request_ignoring ha (.ownConfigureDiscipline p) (.ownConfigureDiscipline p s)

theorem exec_track_admitted (ha : s.Admits 0x22 p) (tag : Byte) :
    exec (.track tag p) s = .next ((ownTrack p s).1.replied 0x22 tag (ownTrack p s).2) :=
  whenReleased_request_ignoring ha (.ownTrack p) (.ownTrack p s)

end

/-! ## RESTART_EXECUTE (R137, R191, R194) -/

theorem exec_restartExecute_due {s : State} (hr : s.resetHold.held = false) (hd : s.link.restartDue = true) :
    exec .restartExecute s = .next s.restartBlocks := by
  show whenReleased _ s = _
  rw [whenReleased_of _ hr, if_pos hd]

/-- Settles O6: the restarted blocks, read through the accessors. -/
theorem restartResetsAllButTime : Obligations.RestartResetsAllButTime := by
  intro s hr hd
  refine ⟨s.restartBlocks, exec_restartExecute_due hr hd, rfl, rfl, rfl, rfl, rfl, linesReset_get s.pins, rfl, fun i => ?_, rfl, rfl, rfl, rfl⟩
  exact Vector.getElem_replicate i.isLt

/-! ## The re-choice (R147, R148) -/

section
variable {s : State}

/-- A change into TRACKING with no slew in flight (R120, R121). -/
theorem State.changeTime_tracking_noSlew (hs : s.time.slew = none) (c : StateCause) : s.changeTime .tracking c =
    ({ s with
        time := { s.time with state := .tracking, p := 0 }
        discipline := { s.discipline with holdoverEntry := none } }.offerNow
      (.state s.time.state .tracking c)).raise .timeState (.timeState .tracking) := by
  rw [State.changeTime_eq, if_pos rfl, State.endSlew_of_none hs]
  rfl

/-- A change into TRACKING behind the end of a slew in flight (R121, R128). -/
theorem State.changeTime_tracking_slew {v : State} (hv : s.endSlew .tracking = v) (c : StateCause) : s.changeTime .tracking c =
    ({ v with
        time := { v.time with state := .tracking, p := 0 }
        discipline := { v.discipline with holdoverEntry := none } }.offerNow
      (.state s.time.state .tracking c)).raise .timeState (.timeState .tracking) := by
  rw [State.changeTime_eq, if_pos rfl, hv]
  rfl

/-- Outside TRACKING, or with a reference lost, a re-choice is the switch and the move of the state (R147, R148). -/
theorem State.rechoose_switched (h : s.choice ≠ s.discipline.followed)
    (ht : ¬ (s.time.state = .tracking ∧ s.discipline.followed.isSome = true ∧ s.choice.isSome = true)) (e : ChoiceEvent) :
    s.rechoose e = (s.switchTo e s.choice).moveState := by
  rw [State.rechoose, State.follow_switched h ht]

/-- With a reference newly followed the time base enters TRACKING (R148). -/
theorem State.rechoose_first {r : RefId} (hf : s.discipline.followed = none) (hc : s.choice = some r) (hs : s.time.state ≠ .tracking)
    (e : ChoiceEvent) : s.rechoose e = (s.switchTo e s.choice).changeTime .tracking .referenceFollowed := by
  rw [State.rechoose_switched (by rw [hc, hf]; nofun) (fun h => hs h.1)]
  exact State.moveState_followed (r := r) (s := s.switchTo e s.choice) hc hs

/-- With none left to follow the time base leaves TRACKING (R148). -/
theorem State.rechoose_last {r : RefId} (hf : s.discipline.followed = some r) (hc : s.choice = none) (e : ChoiceEvent) :
    s.rechoose e = (s.switchTo e s.choice).moveState :=
  State.rechoose_switched (by rw [hc, hf]; nofun) (fun h => by simp [hc] at h) e

end

/-- Settles O35: the re-choice that finds nothing to do, that begins, ends and replaces the following of a reference, and that finds HOLDOVER under NONE. -/
theorem rechoiceMovesTheTimeBase : Obligations.RechoiceMovesTheTimeBase := by
  intro s event u hu
  have hswitch : s.switchTo event s.choice = u := hu.symm
  have hstate : u.time.state = s.time.state := by rw [hu]; rfl
  have hslew : u.time.slew = s.time.slew := by rw [hu]; rfl
  have hfollowed : u.discipline.followed = s.choice := by rw [hu]; rfl
  have hpolicy : u.discipline.policy = s.discipline.policy := by rw [hu]; rfl
  have hnow : u.now = s.now := by rw [hu]; rfl
  refine ⟨fun h => State.rechoose_of_following h event, fun r hf hc hs hn => ?_, fun r sl v hf hc hs hsl hv => ?_, fun r hf hc hs hp => ?_,
    fun r hf hc hs hp => ?_, fun hf hc hs hp => ?_, fun r q hf hc hne hs => ?_⟩
  · rw [State.rechoose_first hf hc hs, hswitch, State.changeTime_tracking_noSlew (hslew.trans hn), hstate]
  · have hend : u.endSlew .tracking = v := (State.endSlew_reported (hslew.trans hsl) _).trans hv.symm
    rw [State.rechoose_first hf hc hs, hswitch, State.changeTime_tracking_slew hend, hstate]
  · rw [State.rechoose_last hf hc, hswitch, State.moveState_lost (hfollowed.trans hc) (hstate.trans hs) (hpolicy ▸ hp),
      State.changeTime_of_ne_tracking (by decide), hstate, hs, if_pos rfl, hnow]
  · rw [State.rechoose_last hf hc, hswitch, State.moveState_policyNone (hfollowed.trans hc) (.inl (hstate.trans hs)) (hpolicy.trans hp),
      State.changeTime_of_ne_tracking (by decide), hstate, hs, if_neg (by decide)]
  · rw [State.rechoose, State.follow_same (hc.trans hf.symm), State.moveState_policyNone hf (.inr hs) hp,
      State.changeTime_of_ne_tracking (by decide), hs, if_neg (by decide)]
  · have hreplaced := State.follow_replaced (s := s) (new := s.choice) (by rw [hc, hf]; exact fun h => hne (Option.some.inj h))
      ⟨hs, by rw [hf]; rfl, by rw [hc]; rfl⟩ event
    rw [State.rechoose, hreplaced, hswitch]
    have hkept : ({ u with time := { s.time with p := 0 } } : State).moveState = { u with time := { s.time with p := 0 } } := by
      refine State.moveState_kept (iff_of_true hs ?_) fun h => nomatch hs.symm.trans h
      show u.discipline.followed.isSome = true
      rw [hfollowed, hc]; rfl
    rw [hkept, show u.time = s.time from by rw [hu]; rfl]

/-! ## HOLDOVER_TIMER_EXPIRY (R153) -/

section
variable {s : State}

theorem State.holdoverDeadline_of {entry : LocalCount} (hs : s.time.state = .holdover) (hl : 0 < s.discipline.params.holdoverLimit)
    (he : s.discipline.holdoverEntry = some entry) :
    s.holdoverDeadline = some (after entry (s.discipline.params.holdoverLimit * 1000000000)) := by
  unfold State.holdoverDeadline; rw [if_pos ⟨hs, hl⟩, he]; rfl

theorem State.holdoverDeadline_none (h : s.time.state ≠ .holdover ∨ s.discipline.params.holdoverLimit = 0) : s.holdoverDeadline = none := by
  unfold State.holdoverDeadline
  rw [if_neg]
  rintro ⟨hs, hl⟩
  exact h.elim (· hs) (Nat.pos_iff_ne_zero.mp hl)

theorem State.expireHoldover_due (h : due s.holdoverDeadline s.now = true) : s.expireHoldover = s.changeTime .free .holdoverLimit := if_pos h

theorem State.expireHoldover_not_due (h : due s.holdoverDeadline s.now = false) : s.expireHoldover = s := if_neg (Bool.eq_false_iff.mp h)

end

/-- Settles O38: the deadline reached, the deadline ahead, and no deadline. -/
theorem holdoverExpires : Obligations.HoldoverExpires := by
  intro s entry hr
  rw [exec_holdoverTimerExpiry_released hr]
  refine ⟨fun hs hl he => ⟨fun hd => ?_, fun hd => ?_⟩, fun h => ?_⟩
  · rw [State.expireHoldover_due (by rw [State.holdoverDeadline_of hs hl he]; exact hd), State.changeTime_of_ne_tracking (by decide), hs,
      if_neg (by decide)]
  · rw [State.expireHoldover_not_due (by rw [State.holdoverDeadline_of hs hl he]; exact hd)]
  · rw [State.expireHoldover_not_due (by rw [State.holdoverDeadline_none h]; rfl)]

/-! ## CONFIGURE DISCIPLINE and TRACK (R145, R146, R157) -/

/-- The parameters of a CONFIGURE DISCIPLINE as its payload (R198). -/
def DisciplineParams.bytes (c : DisciplineParams) : List Byte :=
  leBytes 2 c.window ++ leBytes 1 c.count ++ leBytes 1 c.settle ++ leBytes 4 c.threshold ++ boolCode c.stepPermitted ::
    leBytes 2 c.holdoverLimit

/-- Parameters that CONFIGURE DISCIPLINE accepts (R145). -/
structure DisciplineParams.InRange (c : DisciplineParams) : Prop where
  window : 1 ≤ c.window ∧ c.window ≤ 1000
  count : 2 ≤ c.count ∧ c.count ≤ 15
  settle : 1 ≤ c.settle ∧ c.settle ≤ 64
  threshold : 1 ≤ c.threshold ∧ c.threshold ≤ 500000
  holdoverLimit : c.holdoverLimit ≤ 65535

/-- The six fields of a CONFIGURE DISCIPLINE payload, each modulo its width (R195, R198). -/
theorem DisciplineParams.fields_bytes (c : DisciplineParams) :
    fieldAt c.bytes 0 2 = c.window % 256 ^ 2 ∧ byteAt c.bytes 2 = c.count % 256 ^ 1 ∧ byteAt c.bytes 3 = c.settle % 256 ^ 1 ∧
      fieldAt c.bytes 4 4 = c.threshold % 256 ^ 4 ∧ byteAt c.bytes 8 = (boolCode c.stepPermitted).toNat ∧
      fieldAt c.bytes 9 2 = c.holdoverLimit % 256 ^ 2 := by
  refine ⟨?_, ?_, ?_, ?_, ?_, ?_⟩ <;>
    simp only [DisciplineParams.bytes, byteAt, List.append_assoc, fieldAt_cons, fieldAt_behind, fieldAt_leBytes_append, fieldAt_leBytes,
      Nat.reduceLeDiff, Nat.reduceSub]
  exact byteAt_cons_zero _ _

/-- Parameters within the ranges read back from a CONFIGURE DISCIPLINE payload (R145, R198, R199). -/
theorem DisciplineParams.parse_bytes {c : DisciplineParams} (h : c.InRange) : DisciplineParams.parse c.bytes = some c := by
  obtain ⟨hwindow, hcount, hsettle, hthreshold, hstep, hlimit⟩ := c.fields_bytes
  obtain ⟨hw, hc, hs, ht, hl⟩ := h
  rw [Nat.mod_eq_of_lt (by omega)] at hwindow hcount hsettle hthreshold hlimit
  unfold DisciplineParams.parse
  simp only [hwindow, hcount, hsettle, hthreshold, hstep, hlimit, boolOf_boolCode]
  refine if_pos ?_
  simp only [within, Bool.and_eq_true, decide_eq_true_iff]
  omega

theorem Policy.ofCode_code (policy : Policy) : Policy.ofCode policy.code.toNat = some policy := by cases policy <;> rfl

theorem ownTrack_policy (policy : Policy) (s : State) : ownTrack [policy.code] s =
    ((s.completeSlew.setPolicy policy).rechoose .track, .ok ((s.completeSlew.setPolicy policy).rechoose .track).trackFields) := by
  unfold ownTrack
  rw [byteAt_cons_zero, Policy.ofCode_code]

/-- The fields of a TRACK result, of a state under the policy (R157, R201). -/
theorem State.trackFields_of {t : State} {policy : Policy} (h : t.discipline.policy = policy) : t.trackFields =
    [policy.code, refCode t.discipline.followed] ++ leBytes 4 t.discipline.largeErrors.toNat ++ leBytes 4 t.monitors.a.earlyPulses.toNat ++
      leBytes 4 t.monitors.b.earlyPulses.toNat := by
  simp [State.trackFields, counterBytes, h]

/-- Settles O40: the refusal in TRACKING, the parameters read back and taken, and the policy read back and followed. -/
theorem disciplineIsConfiguredAndTracks : Obligations.DisciplineIsConfiguredAndTracks := by
  intro s c policy tag p hp
  refine ⟨fun ha => ?_, fun ha => ?_⟩
  · rw [exec_configureDiscipline_admitted ha]
    refine ⟨fun hs => ?_, fun hs w1 w2 q1 q2 s1 s2 t1 t2 hl => ?_⟩
    · rw [ownConfigureDiscipline_tracking hs]
    · have hparse : DisciplineParams.parse p = some c :=
        hp ▸ DisciplineParams.parse_bytes ⟨⟨w1, w2⟩, ⟨q1, q2⟩, ⟨s1, s2⟩, ⟨t1, t2⟩, hl⟩
      rw [ownConfigureDiscipline_taken hs hparse]
  · have hpolicy : ((s.completeSlew.setPolicy policy).rechoose .track).discipline.policy = policy := by
      rw [State.rechoose_discipline]; rfl
    refine ⟨_, rfl, ?_⟩
    rw [exec_track_admitted ha, ownTrack_policy, State.trackFields_of hpolicy]

end Sys2Proof.Machine
end

section
/-! SUPPORT. The monitors' pulses and timeouts and the tracking law, case by case, as the statements spell them out (R138 to R144, R149 to R152): O34, O36
and O37. -/

namespace Sys2Proof.Machine

/-! ## Events of a released part -/

theorem exec_referencePulse_released {s : State} (h : s.resetHold.held = false) (r : RefId) (edge : Edge) :
    exec (.referencePulse r edge) s = .next (s.takePulse r edge) := whenReleased_of _ h

theorem exec_referenceTimeout_released {s : State} (h : s.resetHold.held = false) (r : RefId) :
    exec (.referenceTimeout r) s = .next (s.timeoutMonitor r) := whenReleased_of _ h

/-! ## Changes of a monitor (R142, R143) -/

/-- Of two changes of one monitor the later stands. -/
theorem State.setMonitor_setMonitor (s : State) (r : RefId) (x y : Monitor) : (s.setMonitor r x).setMonitor r y = s.setMonitor r y := by
  cases r <;> rfl

/-- A change of monitor state, and the record and the notice that report it (R143). -/
theorem State.changeMonitor_eq (r : RefId) (w : Watch) (c : MonitorCause) (s : State) : s.changeMonitor r w c =
    ((s.setWatch r w).offerNow (.reference r (s.monitor r).watch.state w.state c)).raise .reference
      (.monitors (s.setWatch r w).monitors.a.watch.state (s.setWatch r w).monitors.b.watch.state) := rfl

theorem State.monitor_changeMonitor (r : RefId) (w : Watch) (c : MonitorCause) (s : State) :
    (s.changeMonitor r w c).monitor r = { s.monitor r with watch := w } := s.monitor_setMonitor r _

/-- An early pulse counted, with the watch that it leaves (R142). -/
theorem State.countEarly_setWatch (r : RefId) (w : Watch) (s : State) : (s.countEarly r).setWatch r w =
    s.setMonitor r { s.monitor r with watch := w, earlyPulses := (s.monitor r).earlyPulses + 1 } := by
  unfold State.setWatch State.countEarly
  rw [State.setMonitor_setMonitor, State.monitor_setMonitor]

theorem State.monitor_countEarly (r : RefId) (s : State) :
    (s.countEarly r).monitor r = { s.monitor r with earlyPulses := (s.monitor r).earlyPulses + 1 } := s.monitor_setMonitor r _

/-- The loss of a monitor: the report, the re-choice, and the end of a measurement on it (R142, R147, R156). -/
theorem State.loseMonitor_eq (r : RefId) (c : MonitorCause) (s : State) :
    s.loseMonitor r c = ((s.changeMonitor r .absent c).rechoose (.monitor r)).endMeasureOn r .lost := rfl

/-- A change that neither enters nor leaves QUALIFIED leaves the re-choice nothing to do (R147, R148). -/
theorem State.Following.rechoose_changeMonitor {s : State} (h : s.Following) {r : RefId} {w : Watch}
    (hw : (w.state == .qualified) = s.isQualified r) (c : MonitorCause) (e : ChoiceEvent) :
    (s.changeMonitor r w c).rechoose e = s.changeMonitor r w c := by
  have hq : ∀ q, (s.changeMonitor r w c).isQualified q = s.isQualified q := by
    intro q
    rw [State.isQualified_changeMonitor]
    split
    · next heq => rw [hw, heq]
    · rfl
  exact State.rechoose_of_following (h.congr (t := s.changeMonitor r w c) rfl hq rfl rfl rfl) e

/-! ## The interval of a pulse (R138) -/

section
variable {s : State} {r : RefId} {last : LocalCount}

theorem State.goodInterval_iff : s.goodInterval last = true ↔
    1000000000 - s.discipline.params.window * 1000 ≤ (s.now - last).toNat ∧
      (s.now - last).toNat ≤ 1000000000 + s.discipline.params.window * 1000 := by
  unfold State.goodInterval within
  exact decide_eq_true_iff

/-- An interval below 10^9 − W is not good. -/
theorem State.goodInterval_short (h : (s.now - last).toNat < 1000000000 - s.discipline.params.window * 1000) : ¬ s.goodInterval last = true :=
  fun hg => absurd (State.goodInterval_iff.mp hg).1 (not_le.mpr h)

theorem State.overdue_no_pulse (h : (s.monitor r).watch.last = none) : s.overdue r = false := by
  unfold State.overdue; rw [h]

theorem State.overdue_within (h : (s.monitor r).watch.last = some last)
    (hi : (s.now - last).toNat ≤ 1000000000 + s.discipline.params.window * 1000) : s.overdue r = false := by
  unfold State.overdue; rw [h]
  exact decide_eq_false (not_lt.mpr hi)

/-! ## A pulse, by the monitor's state (R140 to R142) -/

theorem State.takePulse_other_edge {edge : Edge} (h : (s.monitor r).edge ≠ edge) : s.takePulse r edge = s := if_neg h

/-- A pulse with no timeout due before it is judged at once (R138; log 12). -/
theorem State.takePulse_timely {edge : Edge} (he : (s.monitor r).edge = edge) (ho : s.overdue r = false) :
    s.takePulse r edge = s.judgePulse r (s.capture r) := by
  unfold State.takePulse; rw [if_pos he, ho]; rfl

theorem State.judgePulse_off (hw : (s.monitor r).watch = .off) (e : Int) : s.judgePulse r e = s := by
  unfold State.judgePulse; rw [hw]

theorem State.judgePulse_absent (hw : (s.monitor r).watch = .absent) (e : Int) :
    s.judgePulse r e = (s.changeMonitor r (.qualifying 1 s.now) .firstPulse).rechoose (.monitor r) := by
  unfold State.judgePulse; rw [hw]

section
variable {k : Nat} (hw : (s.monitor r).watch = .qualifying k last)
include hw

/-- A short interval in QUALIFYING begins again (R141). -/
theorem State.judgePulse_restarts (hg : ¬ s.goodInterval last = true) (e : Int) :
    s.judgePulse r e = s.setWatch r (.qualifying 1 s.now) := by
  unfold State.judgePulse; rw [hw]; exact if_neg hg

/-- A good interval in QUALIFYING, short of Q (R141). -/
theorem State.judgePulse_counts (hg : s.goodInterval last = true) (hk : k + 1 < s.discipline.params.count) (e : Int) :
    s.judgePulse r e = s.setWatch r (.qualifying (k + 1) s.now) := by
  unfold State.judgePulse; rw [hw]
  exact (if_pos hg).trans (if_neg (not_le.mpr hk))

/-- The good interval with which k reaches Q (R141, R149; log 27). -/
theorem State.judgePulse_qualifies (hg : s.goodInterval last = true) (hk : s.discipline.params.count ≤ k + 1) (e : Int) :
    s.judgePulse r e =
      ((s.completeSlew.changeMonitor r (.qualified s.now false) .qualified).rechoose (.monitor r)).acceptQualified r e := by
  unfold State.judgePulse; rw [hw]
  exact (if_pos hg).trans (if_pos hk)

end

section
variable {early : Bool} (hw : (s.monitor r).watch = .qualified last early)
include hw

/-- A good interval in QUALIFIED (R142, R149). -/
theorem State.judgePulse_accepts (hg : s.goodInterval last = true) (e : Int) :
    s.judgePulse r e = (s.setWatch r (.qualified s.now false)).acceptQualified r e := by
  unfold State.judgePulse; rw [hw]; exact if_pos hg

/-- A short interval in QUALIFIED with no early pulse pending (R142). -/
theorem State.judgePulse_first_early (hg : ¬ s.goodInterval last = true) (hn : early = false) (e : Int) :
    s.judgePulse r e = (s.countEarly r).setWatch r (.qualified last true) := by
  subst hn; unfold State.judgePulse; rw [hw]; exact if_neg hg

/-- The second short interval in a row (R142). -/
theorem State.judgePulse_second_early (hg : ¬ s.goodInterval last = true) (hp : early = true) (e : Int) :
    s.judgePulse r e = (s.countEarly r).loseMonitor r .early := by
  subst hp; unfold State.judgePulse; rw [hw]; exact if_neg hg

end

end

/-! ## The law and the measurement leave the monitors alone (R149 to R152, R155) -/

theorem State.trackingLaw_monitors (e : Int) (s : State) : (s.trackingLaw e).monitors = s.monitors := by
  unfold State.trackingLaw
  simp only
  split
  · rfl
  · split
    · exact State.stepTo_monitors _ _ s
    · rfl

theorem State.disciplinePulse_monitors (r : RefId) (e : Int) (s : State) : (s.disciplinePulse r e).monitors = s.monitors := by
  unfold State.disciplinePulse
  split
  · exact State.trackingLaw_monitors e s
  · rfl

theorem State.measurePulse_monitors (r : RefId) (s : State) : (s.measurePulse r).monitors = s.monitors := by
  unfold State.measurePulse
  split
  · rfl
  · split
    · simp only
      split
      · exact State.endMeasure_monitors _ _
      · rfl
    · rfl

theorem State.acceptQualified_monitors (r : RefId) (e : Int) (s : State) : (s.acceptQualified r e).monitors = s.monitors :=
  (State.measurePulse_monitors r _).trans (State.disciplinePulse_monitors r e s)

/-- The monitor behind the pulse that qualifies it (R141). -/
theorem State.judgePulse_qualifies_monitor {s : State} {r : RefId} {k : Nat} {last : LocalCount}
    (hw : (s.monitor r).watch = .qualifying k last) (hg : s.goodInterval last = true) (hk : s.discipline.params.count ≤ k + 1) (e : Int) :
    (s.judgePulse r e).monitor r = { s.monitor r with watch := .qualified s.now false } := by
  have hmonitors : (s.judgePulse r e).monitors = (s.completeSlew.changeMonitor r (.qualified s.now false) .qualified).monitors := by
    rw [State.judgePulse_qualifies hw hg hk, State.acceptQualified_monitors, State.rechoose_monitors]
  have hslew : s.completeSlew.monitor r = s.monitor r := by unfold State.monitor; rw [State.completeSlew_monitors]
  rw [State.monitor, hmonitors, ← State.monitor, State.monitor_changeMonitor, hslew]

/-- Settles O34: the first pulse, whose re-choice finds nothing to do; what is no pulse; and the three pulses of QUALIFYING. -/
theorem pulsesBeforeQualified : Obligations.PulsesBeforeQualified := by
  refine ⟨fun s r edge hr hf he hw => ⟨_, rfl, ?_, ?_⟩, fun s r edge hr => ?_⟩
  · have hq : (Watch.state (.qualifying 1 s.now) == .qualified) = s.isQualified r := (State.isQualified_of_watch hw).symm
    rw [exec_referencePulse_released hr, State.takePulse_timely he (State.overdue_no_pulse (by rw [hw]; rfl)), State.judgePulse_absent hw,
      hf.rechoose_changeMonitor hq, State.changeMonitor_eq, hw]
    rfl
  · unfold State.timeoutDeadline
    rw [State.monitor_setMonitor]
    rfl
  · rw [exec_referencePulse_released hr]
    refine ⟨fun h => ?_, fun k last he hw => ?_⟩
    · by_cases he : (s.monitor r).edge = edge
      · have hoff : (s.monitor r).watch = .off := h.resolve_left (not_not_intro he)
        rw [State.takePulse_timely he (State.overdue_no_pulse (by rw [hoff]; rfl)), State.judgePulse_off hoff]
      · rw [State.takePulse_other_edge he]
    · have hlast : (s.monitor r).watch.last = some last := by rw [hw]; rfl
      refine ⟨fun hshort => ?_, fun hlo hhi => ?_⟩
      · rw [State.takePulse_timely he (State.overdue_within hlast (by omega)), State.judgePulse_restarts hw (State.goodInterval_short hshort)]
        rfl
      · have hgood : s.goodInterval last = true := State.goodInterval_iff.mpr ⟨hlo, hhi⟩
        rw [State.takePulse_timely he (State.overdue_within hlast hhi)]
        refine ⟨fun hk => ?_, fun hk => ⟨_, rfl, ?_, ?_⟩⟩
        · rw [State.judgePulse_counts hw hgood hk]
          rfl
        · rw [State.judgePulse_qualifies_monitor hw hgood hk]
        · rw [State.judgePulse_qualifies_monitor hw hgood hk]

/-! ## Early pulses and timeouts (R142) -/

section
variable {s : State} {r : RefId}

theorem State.timeoutDeadline_of {last : LocalCount} (h : (s.monitor r).watch.last = some last) :
    s.timeoutDeadline r = some (after last (1000000000 + s.discipline.params.window * 1000)) := by
  unfold State.timeoutDeadline; rw [h]; rfl

theorem State.timeoutDeadline_none (h : (s.monitor r).watch.last = none) : s.timeoutDeadline r = none := by
  unfold State.timeoutDeadline; rw [h]; rfl

theorem State.timeoutMonitor_due (h : due (s.timeoutDeadline r) s.now = true) : s.timeoutMonitor r = s.loseMonitor r .timeout := if_pos h

theorem State.timeoutMonitor_not_due (h : due (s.timeoutDeadline r) s.now = false) : s.timeoutMonitor r = s := if_neg (Bool.eq_false_iff.mp h)

end

/-- Settles O36: the first and the second early pulse; the deadline reached, the deadline ahead, and no deadline. -/
theorem earlyPulsesAndTimeouts : Obligations.EarlyPulsesAndTimeouts := by
  refine ⟨fun s r edge last early u hr he hw hshort => ?_, fun s r u hr hu => ?_⟩
  · have hlast : (s.monitor r).watch.last = some last := by rw [hw]; rfl
    have hg : ¬ s.goodInterval last = true := State.goodInterval_short hshort
    rw [exec_referencePulse_released hr, State.takePulse_timely he (State.overdue_within hlast (by omega))]
    refine ⟨fun hfirst => ?_, fun hsecond hu => ?_⟩
    · rw [State.judgePulse_first_early hw hg hfirst, State.countEarly_setWatch]
    · rw [State.judgePulse_second_early hw hg hsecond, State.loseMonitor_eq, State.changeMonitor_eq, State.countEarly_setWatch, ← hu,
        State.monitor_countEarly, hw]
      rfl
  · rw [exec_referenceTimeout_released hr]
    refine ⟨fun last hlast => ⟨fun hd => ?_, fun hd => ?_⟩, fun hnone => ?_⟩
    · rw [State.timeoutMonitor_due (by rw [State.timeoutDeadline_of hlast]; exact hd), State.loseMonitor_eq, State.changeMonitor_eq,
        State.setWatch, ← hu]
      rfl
    · rw [State.timeoutMonitor_not_due (by rw [State.timeoutDeadline_of hlast]; exact hd)]
    · rw [State.timeoutMonitor_not_due (by rw [State.timeoutDeadline_none hnone]; rfl)]

/-! ## The tracking law (R144, R149 to R152) -/

section
variable {s : State} {e : Int}

/-- An error of at most T corrects f and p (R152). -/
theorem State.trackingLaw_small (h : (e.natAbs : Int) ≤ s.discipline.params.threshold * 4000) : s.trackingLaw e =
    { s with time := { s.time with
        f := clamp 1600000 (s.time.f - e.tdiv s.discipline.params.settle)
        p := clamp 3200000 ((-(4 * e)).tdiv s.discipline.params.settle) } } := if_pos h

/-- An error above T steps the time base by −e when a step is permitted (R150). -/
theorem State.trackingLaw_stepped (h : (s.discipline.params.threshold : Int) * 4000 < e.natAbs) (hp : s.discipline.params.stepPermitted = true)
    (hs : s.time.slew = none) : s.trackingLaw e =
    { s.leap .discipline (s.time.value.add (-e)) with
      time := { (s.leap .discipline (s.time.value.add (-e))).time with p := 0 } } := by
  have hstep : s.stepBy .discipline (-e) = s.leap .discipline (s.time.value.add (-e)) := State.stepTo_noSlew hs _ _
  rw [← hstep]
  exact (if_neg (not_le.mpr h)).trans (if_pos hp)

/-- An error above T with no step permitted corrects p alone, and is counted (R151). -/
theorem State.trackingLaw_large (h : (s.discipline.params.threshold : Int) * 4000 < e.natAbs)
    (hp : s.discipline.params.stepPermitted = false) : s.trackingLaw e =
    { s with
      time := { s.time with p := clamp 3200000 ((-(4 * e)).tdiv s.discipline.params.settle) }
      discipline := { s.discipline with largeErrors := s.discipline.largeErrors + 1 } } :=
  (if_neg (not_le.mpr h)).trans (if_neg (Bool.eq_false_iff.mp hp))

/-- An accepted pulse of the followed reference in TRACKING (R149, R155). -/
theorem State.acceptQualified_followed {r : RefId} (hf : s.discipline.followed = some r) (ht : s.time.state = .tracking) (e : Int) :
    s.acceptQualified r e = (s.trackingLaw e).measurePulse r := by
  unfold State.acceptQualified State.disciplinePulse; rw [if_pos ⟨hf, ht⟩]

end

/-- Settles O37: the pulse is accepted, its phase error is e, and the law has a case for each size of e. -/
theorem trackingLawCorrectsTheRate : Obligations.TrackingLawCorrectsTheRate := by
  intro s r edge last early v e u hr he hw hf ht hs hlo hhi hv hcapture hu
  have hlast : (s.monitor r).watch.last = some last := by rw [hw]; rfl
  have hgood : s.goodInterval last = true := State.goodInterval_iff.mpr ⟨hlo, hhi⟩
  have herror : s.capture r = e := by rw [hcapture, hv]; rfl
  have haccepted : s.judgePulse r e = (u.trackingLaw e).measurePulse r := by
    rw [State.judgePulse_accepts hw hgood, State.setWatch, ← hu, State.acceptQualified_followed (by rw [hu]; exact hf) (by rw [hu]; exact ht)]
  have htime : u.time = s.time := by rw [hu]; rfl
  have hdiscipline : u.discipline = s.discipline := by rw [hu]; rfl
  rw [exec_referencePulse_released hr, State.takePulse_timely he (State.overdue_within hlast hhi), herror, haccepted]
  refine ⟨fun hsmall => ?_, fun hlarge hp => ?_, fun hlarge hp => ?_⟩
  · rw [State.trackingLaw_small (by rw [hdiscipline]; exact hsmall), htime, hdiscipline]
  · rw [State.trackingLaw_stepped (by rw [hdiscipline]; exact hlarge) (by rw [hdiscipline]; exact hp) (by rw [htime]; exact hs)]
    unfold State.leap
    rw [htime]
    rfl
  · rw [State.trackingLaw_large (by rw [hdiscipline]; exact hlarge) (by rw [hdiscipline]; exact hp), htime, hdiscipline]

end Sys2Proof.Machine
end

section
/-! SUPPORT. CONFIGURE REFERENCE and MEASURE, and a measurement from its first pulse to its end, as the statements spell them out (R139, R154 to R156): O39 and
O41. -/

namespace Sys2Proof.Machine

/-! ## CONFIGURE REFERENCE (R139) -/

/-- A CONFIGURE REFERENCE as its payload (R198). -/
def ReferenceRequest.bytes (q : ReferenceRequest) : List Byte :=
  refCode (some q.ref) :: boolCode q.enable :: leBytes 4 q.deskew ++ [if q.edge = .rising then (0 : Byte) else 1]

theorem RefId.ofCode_refCode (r : RefId) : RefId.ofCode (refCode (some r)).toNat = some r := by cases r <;> rfl

theorem Edge.ofCode_code (edge : Edge) : Edge.ofCode (if edge = .rising then (0 : Byte) else 1).toNat = some edge := by cases edge <;> rfl

/-- The four fields of a CONFIGURE REFERENCE payload, the deskew modulo its width (R195, R198). -/
theorem ReferenceRequest.fields_bytes (q : ReferenceRequest) :
    byteAt q.bytes 0 = (refCode (some q.ref)).toNat ∧ byteAt q.bytes 1 = (boolCode q.enable).toNat ∧
      fieldAt q.bytes 2 4 = q.deskew % 256 ^ 4 ∧ byteAt q.bytes 6 = (if q.edge = .rising then (0 : Byte) else 1).toNat := by
  refine ⟨?_, ?_, ?_, ?_⟩ <;>
    simp only [byteAt, ReferenceRequest.bytes, List.cons_append, fieldAt_cons, fieldAt_cons_byte, fieldAt_behind, fieldAt_leBytes_append,
      Nat.reduceLeDiff, Nat.reduceSub]

/-- A request with a deskew in range reads back from its payload (R139, R198, R199). -/
theorem ReferenceRequest.parse_bytes {q : ReferenceRequest} (h : q.deskew ≤ maxDeskew) : ReferenceRequest.parse q.bytes = some q := by
  obtain ⟨href, henable, hdeskew, hedge⟩ := q.fields_bytes
  rw [Nat.mod_eq_of_lt (by unfold maxDeskew at h; omega)] at hdeskew
  unfold ReferenceRequest.parse
  simp only [href, henable, hdeskew, hedge, RefId.ofCode_refCode, boolOf_boolCode, Edge.ofCode_code]
  exact if_pos h

/-- The three values replaced together (R139). -/
def State.setReference (q : ReferenceRequest) (s : State) : State :=
  s.setMonitor q.ref { s.monitor q.ref with enable := q.enable, deskew := q.deskew, edge := q.edge }

section
variable {s : State} {p : List Byte} {q : ReferenceRequest}

theorem ownConfigureReference_out_of_range (hp : ReferenceRequest.parse p = none) : ownConfigureReference p s = (s, .bare .range) := by
  unfold ownConfigureReference; rw [hp]

theorem ownConfigureReference_kept (hp : ReferenceRequest.parse p = some q) (hm : referenceMove (s.monitor q.ref) q = none) :
    ownConfigureReference p s = (s.setReference q, .ok []) := by
  unfold ownConfigureReference; simp only [hp, hm]; rfl

theorem ownConfigureReference_moved (hp : ReferenceRequest.parse p = some q) {w : Watch} {c : MonitorCause}
    (hm : referenceMove (s.monitor q.ref) q = some (w, c)) : ownConfigureReference p s =
      ((((s.setReference q).changeMonitor q.ref w c).rechoose (.monitor q.ref)).endMeasureOn q.ref (measureCauseOf c), .ok []) := by
  unfold ownConfigureReference; simp only [hp, hm]; rfl

end

theorem OwnIgnoresLink.ownConfigureReference (p : List Byte) : OwnIgnoresLink (ownConfigureReference p) := by
  intro s l
  cases hp : ReferenceRequest.parse p with
  | none => rw [ownConfigureReference_out_of_range hp, ownConfigureReference_out_of_range hp]
  | some q =>
    cases hm : referenceMove (s.monitor q.ref) q with
    | none => rw [ownConfigureReference_kept hp hm]; exact ownConfigureReference_kept (s := s.withLink l) hp hm
    | some move =>
      obtain ⟨w, c⟩ := move
      rw [ownConfigureReference_moved hp hm, ownConfigureReference_moved (s := s.withLink l) hp hm, ← IgnoresLink.endMeasureOn,
        ← IgnoresLink.rechoose]
      rfl

theorem exec_configureReference_admitted {s : State} {p : List Byte} (ha : s.Admits 0x20 p) (tag : Byte) :
    exec (.configureReference tag p) s = .next ((ownConfigureReference p s).1.replied 0x20 tag (ownConfigureReference p s).2) :=
  whenReleased_request_ignoring ha (.ownConfigureReference p) (.ownConfigureReference p s)

/-! The table of R139, by the monitor's state and what changes. -/

section
variable {m : Monitor} {q : ReferenceRequest}

theorem referenceMove_off_kept (hw : m.watch = .off) (hq : q.enable = false) : referenceMove m q = none := by
  simp [referenceMove, hw, hq]

theorem referenceMove_enabled (hw : m.watch = .off) (hq : q.enable = true) : referenceMove m q = some (.absent, .enabled) := by
  simp [referenceMove, hw, hq]

theorem referenceMove_absent_kept (hw : m.watch = .absent) (hq : q.enable = true) : referenceMove m q = none := by
  simp [referenceMove, hw, hq]

theorem referenceMove_disabled (hw : m.watch ≠ .off) (hq : q.enable = false) : referenceMove m q = some (.off, .disabled) := by
  unfold referenceMove
  cases h : m.watch with
  | off => exact absurd h hw
  | absent => simp [hq]
  | qualifying k last => simp [hq]
  | qualified last early => simp [hq]

/-- QUALIFYING and QUALIFIED, which alone have a last accepted pulse, stand or fall with the active edge. -/
theorem referenceMove_edge (hw : m.watch.last.isSome = true) (hq : q.enable = true) :
    referenceMove m q = if m.edge = q.edge then none else some (.absent, .edgeChanged) := by
  unfold referenceMove
  cases h : m.watch with
  | off => simp [h, Watch.last] at hw
  | absent => simp [h, Watch.last] at hw
  | qualifying k last => exact if_pos hq
  | qualified last early => exact if_pos hq

end

/-- Settles O39: the payload reads back, and each clause is an entry of the table of R139. -/
theorem referenceIsConfigured : Obligations.ReferenceIsConfigured := by
  intro s r enable deskew edge tag p u hd hp ha hu
  have hparse : ReferenceRequest.parse p = some ⟨r, enable, deskew, edge⟩ :=
    hp ▸ ReferenceRequest.parse_bytes (q := ⟨r, enable, deskew, edge⟩) hd
  have hset : s.setReference ⟨r, enable, deskew, edge⟩ = u := hu.symm
  have kept (hm : referenceMove (s.monitor r) ⟨r, enable, deskew, edge⟩ = none) :
      exec (.configureReference tag p) s = .next (u.replied 0x20 tag (.ok [])) := by
    rw [exec_configureReference_admitted ha, ownConfigureReference_kept hparse hm, hset]
  have moved {w : Watch} {c : MonitorCause} (hm : referenceMove (s.monitor r) ⟨r, enable, deskew, edge⟩ = some (w, c)) :
      exec (.configureReference tag p) s =
        .next ((((u.changeMonitor r w c).rechoose (.monitor r)).endMeasureOn r (measureCauseOf c)).replied 0x20 tag (.ok [])) := by
    rw [exec_configureReference_admitted ha, ownConfigureReference_moved hparse hm, hset]
  refine ⟨fun hw hq => kept (referenceMove_off_kept hw hq), fun hw hq => kept (referenceMove_absent_kept hw hq), fun hw hq he => kept ?_,
    fun hw hq => moved (referenceMove_enabled hw hq), fun hw hq => moved (referenceMove_disabled hw hq), fun hw hq he => moved ?_⟩
  · rw [referenceMove_edge hw hq]; exact if_pos he
  · rw [referenceMove_edge hw hq]; exact if_neg he

/-! ## MEASURE (R154) -/

/-- The end of a measurement in flight, its record and its notice (R156). -/
theorem State.endMeasure_of {s : State} {m : Measurement} (h : s.discipline.measurement = some m) (c : MeasureCause) :
    s.endMeasure c = ({ s with discipline := { s.discipline with measurement := none } }.offerNow
      (.measureEnd m.ref c m.n m.intervals m.result)).raise .opDone .empty := by
  unfold State.endMeasure; rw [h]

theorem State.endMeasure_none {s : State} (h : s.discipline.measurement = none) (c : MeasureCause) : s.endMeasure c = s := by
  unfold State.endMeasure; rw [h]

theorem within_measure_iff (n : Nat) : within 2 64 n = true ↔ 2 ≤ n ∧ n ≤ 64 := by
  unfold within; exact decide_eq_true_iff

section
variable {s : State} {p : List Byte}

theorem ownMeasure_no_reference (hp : RefId.ofCode (byteAt p 0) = none) : ownMeasure p s = (s, .bare .range) := by
  unfold ownMeasure; simp only [hp]

section
variable {r : RefId} (hp : RefId.ofCode (byteAt p 0) = some r)
include hp

theorem ownMeasure_cancels (h0 : byteAt p 1 = 0) : ownMeasure p s = (s.endMeasure .cancelled, .ok []) := by
  unfold ownMeasure; simp only [hp]; exact if_pos h0

theorem ownMeasure_out_of_range (h0 : byteAt p 1 ≠ 0) (hn : ¬ (2 ≤ byteAt p 1 ∧ byteAt p 1 ≤ 64)) : ownMeasure p s = (s, .bare .range) := by
  unfold ownMeasure
  simp only [hp, if_neg h0, if_neg (mt (within_measure_iff _).mp hn)]

theorem ownMeasure_refused (hn : 2 ≤ byteAt p 1 ∧ byteAt p 1 ≤ 64) (hs : s.discipline.measurement ≠ none ∨ s.isQualified r = false) :
    ownMeasure p s = (s, .bare .state) := by
  have h0 : byteAt p 1 ≠ 0 := by omega
  unfold ownMeasure
  simp only [hp, if_neg h0, if_pos ((within_measure_iff _).mpr hn)]
  split
  · rfl
  · next hm =>
    have hq : s.isQualified r = false := hs.resolve_left fun h => hm (Option.isSome_iff_ne_none.mpr h)
    rw [hq]; rfl

theorem ownMeasure_starts (hn : 2 ≤ byteAt p 1 ∧ byteAt p 1 ≤ 64) (hm : s.discipline.measurement = none) (hq : s.isQualified r = true) :
    ownMeasure p s = ({ s with discipline := { s.discipline with
      measurement := some { ref := r, n := byteAt p 1, intervals := 0, first := none, span := 0 } } }, .ok []) := by
  have h0 : byteAt p 1 ≠ 0 := by omega
  unfold ownMeasure
  simp only [hp, if_neg h0, if_pos ((within_measure_iff _).mpr hn), hm, Option.isSome_none, Bool.false_eq_true, if_false, hq, if_true]

end

end

theorem OwnIgnoresLink.ownMeasure (p : List Byte) : OwnIgnoresLink (ownMeasure p) := by
  intro s l
  cases hp : RefId.ofCode (byteAt p 0) with
  | none => rw [ownMeasure_no_reference hp, ownMeasure_no_reference hp]
  | some r =>
    by_cases h0 : byteAt p 1 = 0
    · rw [ownMeasure_cancels hp h0, ownMeasure_cancels hp h0, IgnoresLink.endMeasure]
    · by_cases hn : 2 ≤ byteAt p 1 ∧ byteAt p 1 ≤ 64
      · by_cases hs : s.discipline.measurement = none ∧ s.isQualified r = true
        · obtain ⟨hm, hq⟩ := hs
          rw [ownMeasure_starts hp hn hm hq]
          exact ownMeasure_starts (s := s.withLink l) hp hn hm hq
        · have hs' : s.discipline.measurement ≠ none ∨ s.isQualified r = false := by simpa [imp_iff_not_or] using hs
          rw [ownMeasure_refused hp hn hs']
          exact ownMeasure_refused (s := s.withLink l) hp hn hs'
      · rw [ownMeasure_out_of_range hp h0 hn, ownMeasure_out_of_range hp h0 hn]

theorem exec_measure_admitted {s : State} {p : List Byte} (ha : s.Admits 0x23 p) (tag : Byte) :
    exec (.measure tag p) s = .next ((ownMeasure p s).1.replied 0x23 tag (ownMeasure p s).2) :=
  whenReleased_request_ignoring ha (.ownMeasure p) (.ownMeasure p s)

/-! ## The pulses of a measurement (R155) -/

theorem Measurement.takePulse_first {m : Measurement} (h : m.first = none) (now : LocalCount) :
    m.takePulse now = { m with first := some now } := by
  unfold Measurement.takePulse; rw [h]

theorem Measurement.takePulse_interval {m : Measurement} {first : LocalCount} (h : m.first = some first) (now : LocalCount) :
    m.takePulse now = { m with intervals := m.intervals + 1, span := now - first } := by
  unfold Measurement.takePulse; rw [h]

theorem Measurement.result_of {m : Measurement} (h : m.intervals ≠ 0) :
    m.result = some ((16 * ((m.span.toNat : Int) - m.intervals * 1000000000)).tdiv m.intervals) := if_neg h

section
variable {s : State} {m : Measurement} (hm : s.discipline.measurement = some m)
include hm

/-- An accepted pulse of the reference under measurement: taken in, and the end with the Nth interval (R155). -/
theorem State.measurePulse_of : s.measurePulse m.ref =
    let u := { s with discipline := { s.discipline with measurement := some (m.takePulse s.now) } }
    if (m.takePulse s.now).first.isSome = true ∧ (m.takePulse s.now).intervals = (m.takePulse s.now).n then u.endMeasure .complete else u := by
  unfold State.measurePulse; rw [hm]; exact if_pos rfl

theorem State.measurePulse_first (hf : m.first = none) (hn : m.intervals < m.n) : s.measurePulse m.ref =
    { s with discipline := { s.discipline with measurement := some { m with first := some s.now } } } := by
  rw [State.measurePulse_of hm, Measurement.takePulse_first hf]
  exact if_neg fun h => hn.ne h.2

section
variable {first : LocalCount} (hf : m.first = some first)
include hf

theorem State.measurePulse_interval (hn : m.intervals + 1 < m.n) : s.measurePulse m.ref =
    { s with discipline := { s.discipline with
      measurement := some { m with intervals := m.intervals + 1, span := s.now - first } } } := by
  rw [State.measurePulse_of hm, Measurement.takePulse_interval hf]
  exact if_neg fun h => hn.ne h.2

/-- The pulse of the Nth interval (R155). -/
theorem State.measurePulse_completes (hn : m.intervals + 1 = m.n) : s.measurePulse m.ref =
    ({ s with discipline := { s.discipline with
      measurement := some { m with intervals := m.n, span := s.now - first } } } : State).endMeasure .complete := by
  have hsome : m.first.isSome = true := by rw [hf]; rfl
  rw [State.measurePulse_of hm, Measurement.takePulse_interval hf, hn]
  exact if_pos ⟨hsome, rfl⟩

end

end

/-- Settles O41: MEASURE by its amount and what is in flight; a first pulse, one more interval, and the last. -/
theorem measurementRuns : Obligations.MeasurementRuns := by
  intro s r b tag
  refine ⟨fun ha => ?_, fun m hm hr => ?_⟩
  · have href : RefId.ofCode (byteAt [refCode (some r), b] 0) = some r := by rw [byteAt_cons_zero, RefId.ofCode_refCode]
    have hamount : byteAt [refCode (some r), b] 1 = b.toNat := by rw [byteAt, fieldAt_cons (le_refl 1), fieldAt_cons_byte]
    rw [exec_measure_admitted ha]
    refine ⟨fun h1 h2 hn hq => ?_, fun h1 h2 hs => ?_, fun hout => ?_, fun h0 hn => ?_, fun m h0 hm => ?_⟩
    · rw [ownMeasure_starts href (by omega) hn hq, hamount]
    · rw [ownMeasure_refused href (by omega) hs]
    · rw [ownMeasure_out_of_range href (by omega) (by omega)]
    · rw [ownMeasure_cancels href (by rw [hamount, h0]; rfl), State.endMeasure_none hn]
    · rw [ownMeasure_cancels href (by rw [hamount, h0]; rfl), State.endMeasure_of hm]
  · subst hr
    refine ⟨fun hf hn => State.measurePulse_first hm hf hn, fun first hf hn => State.measurePulse_interval hm hf hn, fun first hf hn => ?_⟩
    rw [State.measurePulse_completes hm hf hn, State.endMeasure_of rfl, Measurement.result_of (by show m.n ≠ 0; omega)]

end Sys2Proof.Machine
end

section
/-! SUPPORT. The record queue's invariant (R159, R161 to R165): kept by every event, and so by every step (O54). -/

namespace Sys2Proof.Machine

/-! ## The events that touch the queue otherwise than by an offer -/

theorem within_iff (lo hi v : Nat) : within lo hi v = true ↔ lo ≤ v ∧ v ≤ hi := by
  unfold within; exact decide_eq_true_iff

section
variable {s : State} {p : List Byte}

/-- CONFIGURE QUEUE within the ranges of R165. -/
theorem ownConfigureQueue_in_range (ht : 256 ≤ fieldAt p 0 2 ∧ fieldAt p 0 2 ≤ 4095) (hp : fieldAt p 2 2 ≤ 3600) :
    ownConfigureQueue p s = ({ s with
      queue := (s.queue.configure (fieldAt p 0 2) (fieldAt p 2 2) s.now).1
      notices := s.notices.raiseAll (s.queue.configure (fieldAt p 0 2) (fieldAt p 2 2) s.now).2 }, .ok []) := by
  refine if_pos ?_
  simp only [Bool.and_eq_true, within_iff]
  exact ⟨ht, Nat.zero_le _, hp⟩

/-- CONFIGURE QUEUE outside the ranges of R165. -/
theorem ownConfigureQueue_out_of_range (h : ¬ ((256 ≤ fieldAt p 0 2 ∧ fieldAt p 0 2 ≤ 4095) ∧ fieldAt p 2 2 ≤ 3600)) :
    ownConfigureQueue p s = (s, .bare .range) := by
  refine if_neg ?_
  simp only [Bool.and_eq_true, within_iff]
  exact fun hin => h ⟨hin.1, hin.2.2⟩

theorem ownConfigureQueue_sound (p : List Byte) (h : s.queue.Sound) : (ownConfigureQueue p s).1.queue.Sound := by
  by_cases hin : (256 ≤ fieldAt p 0 2 ∧ fieldAt p 0 2 ≤ 4095) ∧ fieldAt p 2 2 ≤ 3600
  · rw [ownConfigureQueue_in_range hin.1 hin.2]
    exact RecordQueue.configure_sound h _ _ _ hin.1
  · rw [ownConfigureQueue_out_of_range hin]
    exact h

end

/-- An expiry of the statistics timer that is due (R174). -/
theorem State.expireStats_due {s : State} {d : LocalCount} (hd : s.queue.statsDeadline = some d) (hr : reached d s.now = true) :
    s.expireStats = ({ s with queue := s.queue.nextPeriod d } : State).offerStats := by
  unfold State.expireStats; rw [hd]; exact if_pos hr

/-- The statistics timer before its deadline, or stopped (R174). -/
theorem State.expireStats_not_due {s : State} (h : ∀ d, s.queue.statsDeadline = some d → reached d s.now = false) : s.expireStats = s := by
  unfold State.expireStats
  cases hd : s.queue.statsDeadline with
  | none => rfl
  | some d => exact if_neg (by rw [h d hd]; decide)

theorem State.expireStats_sound {s : State} (h : s.queue.Sound) : s.expireStats.queue.Sound := by
  by_cases hdue : ∀ d, s.queue.statsDeadline = some d → reached d s.now = false
  · rw [State.expireStats_not_due hdue]; exact h
  · simp only [not_forall, Bool.not_eq_false] at hdue
    obtain ⟨d, hd, hr⟩ := hdue
    rw [State.expireStats_due hd hr]
    exact State.offerStats_sound _ (RecordQueue.nextPeriod_sound h (by rw [hd]; rfl) d)

/-- Behind a completed RECORD frame the queue is without its head, whatever becomes of the fetch (R167). -/
theorem State.completeRecord_queue (s : State) :
    s.completeRecord.queue = if s.link.sendsRecord then s.queue.removeHead else s.queue := by
  have looks : LinkBlind fun t => t.queue = s.queue.removeHead := ⟨fun _ _ h => h, fun _ _ h => h⟩
  unfold State.completeRecord
  split
  · simp only
    split
    · exact looks.fetchLooks _ rfl
    · rfl
    · rfl
  · rfl

theorem State.completeRecord_sound {s : State} (h : s.queue.Sound) : s.completeRecord.queue.Sound := by
  rw [State.completeRecord_queue]
  split
  · exact RecordQueue.removeHead_sound h
  · exact h

theorem State.handOver_queue_sound {s : State} (h : s.queue.Sound) : s.handOver.queue.Sound := by
  obtain ⟨i, u, -, hq, -, acts, -⟩ := handOver_acts s
  exact acts.queue (hq ▸ h)

theorem State.elapse_queue (n : Nat) (s : State) : (s.elapse n).queue = s.queue := by
  unfold State.elapse; split <;> rfl

/-- An event of some feed keeps the queue's invariant. -/
theorem queue_of_some_feed {s t : State} (a : ∃ i, Acts i s t ∧ Moves i s t 0 0) (h : s.queue.Sound) : t.queue.Sound := by
  obtain ⟨i, acts, -⟩ := a
  exact acts.queue h

/-! ## O54 -/

/-- The record queue of a state is sound. -/
def State.QueueSound (s : State) : Prop := s.queue.Sound

theorem State.QueueSound.congr {s t : State} (h : s.QueueSound) (e : t.queue = s.queue) : t.QueueSound := by
  unfold State.QueueSound; rw [e]; exact h

/-- The requests that reach the queue otherwise than through the link: by the records of a line, a feed or the time base, or as CONFIGURE QUEUE. -/
theorem State.QueueSound.owners : OwnersKeep State.QueueSound where
  link _ _ h := h
  notices _ _ h := h
  enableLine p s h := queue_of_line LineActs.ownEnableLine p s h
  disableLine p s h := queue_of_line LineActs.ownDisableLine p s h
  configureLine p s h := queue_of_line LineActs.ownConfigureLine p s h
  writeSelector p s h := h.congr (queue_writeSelector p s)
  clearSelector p s h := h.congr (queue_clearSelector p s)
  configureFeed p s h := queue_of_some_feed (Acts.ownConfigureFeed p s) h
  openFeed p s h := queue_of_some_feed (Acts.ownOpenFeed p s) h
  closeFeed p s h := queue_of_some_feed (Acts.ownCloseFeed p s) h
  setTime p s h := (TimeActs.ownSetTime p s).queue h
  adjustTime p s h := (TimeActs.ownAdjustTime p s).queue h
  slew p s h := (TimeActs.ownSlew p s).queue h
  setRate p s h := (TimeActs.ownSetRate p s).queue h
  configureReference p s h := (TimeActs.ownConfigureReference p s).queue h
  configureDiscipline p s h := (TimeActs.ownConfigureDiscipline p s).queue h
  track p s h := (TimeActs.ownTrack p s).queue h
  measure p s h := (TimeActs.ownMeasure p s).queue h
  configureQueue p _ h := ownConfigureQueue_sound p h

/-- Every event offers records, removes the head, moves the statistics timer on, resets the queue, or leaves it alone. -/
theorem State.QueueSound.events : EventsKeep State.QueueSound where
  toOwnersKeep := State.QueueSound.owners
  pins _ _ h := h
  portSignal i b s h := (LineActs.portSignal i b s).queue h
  portStart i s h := (LineActs.portStart i s).queue h
  portEnd i g b s h := (LineActs.portEnd i g b s).queue h
  portQuiet i s h := (LineActs.portQuiet i s).queue h
  grant s h := h.congr (queue_grant s)
  handOver _ h := State.handOver_queue_sound h
  expirePairing i s h := (Acts.expirePairing i s).queue h
  expireGaps i s h := (Acts.expireGaps i s).queue h
  expireCandidate i s h := (Acts.expireCandidate i s).queue h
  expireSilence i l s h := (Acts.expireSilence i l s).queue h
  expireStats _ h := State.expireStats_sound h
  takePulse r e s h := (TimeActs.takePulse r e s).queue h
  timeoutMonitor r s h := (TimeActs.timeoutMonitor r s).queue h
  expireHoldover s h := (TimeActs.expireHoldover s).queue h
  completeSlew s h := (TimeActs.completeSlew s).queue h
  completeRecord _ h := State.completeRecord_sound h
  fresh _ _ _ _ := RecordQueue.reset_sound
  restartBlocks _ _ := RecordQueue.reset_sound
  elapse s h := h.congr (State.elapse_queue 1 s)
  pending _ _ h := h

/-- Settles O54: the queue's invariant is kept by every event, so by every step. -/
theorem stepKeepsQueueSound : Obligations.StepKeepsQueueSound :=
  fun _ _ h e => State.QueueSound.events.step h e

end Sys2Proof.Machine
end

section
/-! SUPPORT. What the record queue does with an offer, and with the STATS records of an expiry: O42 and O28 (R161 to R164, R174, R175). -/

namespace Sys2Proof.Machine

/-! ## A new entry (R164) -/

/-- The next new entry brings the occupancy to the threshold while the warning is armed (R164). -/
def RecordQueue.warns (q : RecordQueue) : Bool := q.armed && q.entries.length + 1 == q.threshold

theorem RecordQueue.append_eq (q : RecordQueue) (e : Entry) :
    q.append e = ({ q with entries := q.entries ++ [e], armed := q.armed && !q.warns }, if q.warns then [.queueWarning] else []) := by
  unfold RecordQueue.append RecordQueue.warns
  cases q.armed with
  | false => simp
  | true => by_cases h : q.entries.length + 1 = q.threshold <;> simp [h]

theorem NoticeTable.raiseAll_warning (t : NoticeTable) (w : Bool) :
    t.raiseAll (if w then [.queueWarning] else []) = if w then t.raise .queueWarning .empty else t := by
  cases w <;> rfl

theorem NoticeTable.raiseAll_append (t : NoticeTable) (a b : List NoticeId) : t.raiseAll (a ++ b) = (t.raiseAll a).raiseAll b :=
  List.foldl_append

/-! ## A record offered (R161 to R163) -/

/-- The mark of saturation, as a number (R5, R162). -/
theorem eq_allOnes_iff_toNat (x : BitVec 32) : x = BitVec.allOnes 32 ↔ x.toNat = 4294967295 := BitVec.toNat_eq

/-- The totals behind a lost record, which is taken as well (R163). -/
def RecordQueue.countLoss (q : RecordQueue) : RecordQueue := { q with offered := q.offered + 1, lost := q.lost + 1 }

section
variable {q : RecordQueue} {r : Record} {now : Stamp}

theorem RecordQueue.take_room (h : q.entries.length ≤ 4094) :
    q.take r now = { q with offered := q.offered + 1 }.append (.record r) :=
  if_pos (by show _ ≤ 4096; omega)

theorem RecordQueue.take_full (h : 4095 ≤ q.entries.length) :
    q.take r now = q.countLoss.lose r.body.kindCode now :=
  if_neg (by show ¬ _ ≤ 4096; omega)

theorem RecordQueue.lose_at_marker {front : List Entry} {m : Marker} (h : q.entries = front ++ [.marker m]) (k : Nat) :
    q.lose k now = ({ q with entries := front ++ [.marker (m.merge k now)] }, []) := by
  unfold RecordQueue.lose
  simp only [h, List.getLast?_concat, List.dropLast_concat]

theorem RecordQueue.lose_at_record {front : List Entry} {x : Record} (h : q.entries = front ++ [.record x]) (k : Nat) :
    q.lose k now = ((q.append (.marker (.fresh k now))).1, (q.append (.marker (.fresh k now))).2 ++ [.overflow]) := by
  unfold RecordQueue.lose
  simp only [h, List.getLast?_concat]

/-- A record lost behind a marker at the tail (R161 to R163). -/
theorem RecordQueue.take_at_marker (hfull : 4095 ≤ q.entries.length) {front : List Entry} {m : Marker} (h : q.entries = front ++ [.marker m]) :
    q.take r now = ({ q with
      entries := front ++ [.marker (m.merge r.body.kindCode now)], offered := q.offered + 1, lost := q.lost + 1 }, []) :=
  (RecordQueue.take_full hfull).trans (RecordQueue.lose_at_marker (q := q.countLoss) h _)

/-- A record lost behind an ordinary record at the tail (R161 to R164). -/
theorem RecordQueue.take_at_record (hfull : 4095 ≤ q.entries.length) {front : List Entry} {x : Record} (h : q.entries = front ++ [.record x]) :
    q.take r now = ({ q with
      entries := q.entries ++ [.marker (.fresh r.body.kindCode now)], offered := q.offered + 1, lost := q.lost + 1,
      armed := q.armed && !q.warns }, (if q.warns then [.queueWarning] else []) ++ [.overflow]) := by
  rw [RecordQueue.take_full hfull, RecordQueue.lose_at_record (q := q.countLoss) h, RecordQueue.append_eq]
  rfl

end

/-- Settles O42: room for the record, a marker at the tail, or a record there. -/
theorem recordsAreAppendedOrLost : Obligations.RecordsAreAppendedOrLost := by
  intro s r warns hw
  replace hw : warns = s.queue.warns := hw
  subst hw
  refine ⟨fun hroom => ?_, fun hfull => ⟨fun front m hm => ?_, fun front x hx => ?_⟩⟩
  · unfold State.offer
    rw [RecordQueue.take_room hroom, RecordQueue.append_eq, NoticeTable.raiseAll_warning]
    rfl
  · unfold State.offer
    rw [RecordQueue.take_at_marker hfull hm]
    simp only [Marker.merge, kindSet, eq_allOnes_iff_toNat]
    rfl
  · unfold State.offer
    rw [RecordQueue.take_at_record hfull hx, NoticeTable.raiseAll_append, NoticeTable.raiseAll_warning]
    rfl

/-! ## The STATS records of an expiry (R174, R175) -/

theorem exec_statisticsTimerExpiry_released {s : State} (h : s.resetHold.held = false) :
    exec .statisticsTimerExpiry s = .next s.expireStats := whenReleased_of _ h

/-- Bodies offered one after the other bear one stamp: an offer does not move the time base (R160). -/
theorem State.foldl_offerNow {α : Type} (body : α → RecordBody) (l : List α) (s : State) :
    l.foldl (fun t a => t.offerNow (body a)) s = s.offerAll (l.map fun a => { stamp := s.reading, body := body a }) := by
  induction l generalizing s with
  | nil => rfl
  | cons a l ih => exact ih (s.offerNow (body a))

theorem State.offerStats_eq (s : State) :
    s.offerStats = s.offerAll ((allFeeds.filter fun i => (s.feed i).isOpen).map fun i =>
      { stamp := s.reading, body := .stats (s.statsOf i) }) :=
  State.foldl_offerNow _ _ s

/-- Settles O28: an expiry that is not due, and one that is. -/
theorem statisticsAreOffered : Obligations.StatisticsAreOffered := by
  intro s hr
  rw [exec_statisticsTimerExpiry_released hr]
  refine ⟨fun h => ?_, fun d hd h => ?_⟩
  · rw [State.expireStats_not_due h]
  · rw [State.expireStats_due hd h, State.offerStats_eq]
    rfl

end Sys2Proof.Machine
end

section
/-! SUPPORT. CONFIGURE QUEUE, FETCH, HALT and RECORD_FRAME_COMPLETE as the statements spell them out (R163 to R171, R174): O43, O44 and O45. -/

namespace Sys2Proof.Machine

/-! ## The warning armed again, and the head removed (R163, R164, R167) -/

theorem RecordQueue.rearm_eq (q : RecordQueue) :
    q.rearm = { q with armed := q.armed || decide (q.entries.length ≤ q.threshold - 512) } := by
  unfold RecordQueue.rearm
  rw [RecordQueue.rearmLevel_eq]
  cases ha : q.armed with
  | true => rw [if_neg (by simp), Bool.true_or, ← ha]
  | false =>
    by_cases hl : q.entries.length ≤ q.threshold - 512
    · rw [if_pos ⟨rfl, hl⟩, decide_eq_true hl, Bool.false_or]
    · rw [if_neg (fun h => hl h.2), decide_eq_false hl, Bool.false_or, ← ha]

/-- The head removed: its total, and the warning (R163, R164). -/
theorem RecordQueue.removeHead_cons {q : RecordQueue} {e : Entry} {rest : List Entry} (h : q.entries = e :: rest) :
    q.removeHead = { q with
      entries := rest, delivered := q.delivered + (if e.isMarker then 0 else 1),
      armed := q.armed || decide (rest.length ≤ q.threshold - 512) } := by
  unfold RecordQueue.removeHead
  cases e with
  | record r => simp only [h]; exact RecordQueue.rearm_eq _
  | marker m => simp only [h, RecordQueue.rearm_eq, Entry.isMarker, if_true, add_zero]

/-! ## CONFIGURE QUEUE (R165) -/

/-- The queue with both values replaced and the statistics timer started afresh (R165, R174). -/
def RecordQueue.replaced (threshold period : Nat) (now : LocalCount) (q : RecordQueue) : RecordQueue :=
  { q with threshold := threshold, period := period, statsDeadline := statsStart period now }

section
variable {q : RecordQueue} {threshold : Nat} (period : Nat) (now : LocalCount)

theorem RecordQueue.configure_raises (ha : q.armed = true) (hl : threshold ≤ q.entries.length) :
    q.configure threshold period now = ({ q.replaced threshold period now with armed := false }, [.queueWarning]) :=
  if_pos ⟨ha, hl⟩

theorem RecordQueue.configure_stays_armed (ha : q.armed = true) (hl : q.entries.length < threshold) :
    q.configure threshold period now = (q.replaced threshold period now, []) := by
  have hq : (q.replaced threshold period now).rearm = q.replaced threshold period now := if_neg (by simp [RecordQueue.replaced, ha])
  exact (if_neg fun h => absurd h.2 (Nat.not_le.mpr hl)).trans (Prod.ext hq rfl)

theorem RecordQueue.configure_disarmed (ha : q.armed = false) :
    q.configure threshold period now =
      ({ q.replaced threshold period now with armed := decide (q.entries.length ≤ threshold - 512) }, []) := by
  have hq := (q.replaced threshold period now).rearm_eq
  simp only [RecordQueue.replaced, ha, Bool.false_or] at hq
  exact (if_neg (by simp [ha])).trans (Prod.ext (by simpa only [RecordQueue.replaced, ha] using hq) rfl)

end

/-- The owning block of CONFIGURE QUEUE does not read the link. -/
theorem OwnIgnoresLink.ownConfigureQueue (p : List Byte) : OwnIgnoresLink (ownConfigureQueue p) := by
  intro s l
  by_cases hin : (256 ≤ fieldAt p 0 2 ∧ fieldAt p 0 2 ≤ 4095) ∧ fieldAt p 2 2 ≤ 3600
  · rw [ownConfigureQueue_in_range hin.1 hin.2, ownConfigureQueue_in_range hin.1 hin.2]; rfl
  · rw [ownConfigureQueue_out_of_range hin, ownConfigureQueue_out_of_range hin]

theorem link_ownConfigureQueue (p : List Byte) (s : State) : (ownConfigureQueue p s).1.link = s.link :=
  congrArg (fun x : State × Reply => x.1.link) (OwnIgnoresLink.ownConfigureQueue p s s.link)

theorem exec_configureQueue_admitted {s : State} {p : List Byte} (ha : s.Admits 0x28 p) (tag : Byte) :
    exec (.configureQueue tag p) s = .next ((ownConfigureQueue p s).1.replied 0x28 tag (ownConfigureQueue p s).2) :=
  (whenReleased_of _ ha.released).trans
    (congrArg _ (State.request_replied _ ha (OwnIgnoresLink.ownConfigureQueue p s s.arrived.link) (link_ownConfigureQueue p s)))

/-- Settles O43: the payload reads back; the warning by its state and the occupancy; and the ranges. -/
theorem queueIsConfigured : Obligations.QueueIsConfigured := by
  intro s threshold period tag p hp ha ht hd
  have hthreshold : fieldAt p 0 2 = threshold := by rw [hp, fieldAt_leBytes_append]; exact Nat.mod_eq_of_lt ht
  have hperiod : fieldAt p 2 2 = period := by
    rw [hp, fieldAt_behind (le_refl 2), Nat.sub_self, fieldAt_leBytes]; exact Nat.mod_eq_of_lt hd
  rw [exec_configureQueue_admitted ha]
  refine ⟨fun h1 h2 h3 => ⟨s.queue.replaced threshold period s.now, rfl, ?_⟩, fun hout => ?_⟩
  · rw [ownConfigureQueue_in_range (by rw [hthreshold]; exact ⟨h1, h2⟩) (by rw [hperiod]; exact h3), hthreshold, hperiod]
    refine ⟨fun harmed hlen => ?_, fun harmed hlen => ?_, fun hdisarmed => ?_⟩
    · rw [RecordQueue.configure_raises _ _ harmed hlen]; rfl
    · rw [RecordQueue.configure_stays_armed _ _ harmed hlen]; rfl
    · rw [RecordQueue.configure_disarmed _ _ hdisarmed]; rfl
  · rw [ownConfigureQueue_out_of_range (by rw [hthreshold, hperiod]; omega)]

/-! ## The results of a fetch and of the HALTs it took (R170, R171) -/

/-- The results of HALTs, all OK (R171). -/
def haltResults (tags : List Byte) : List Result := tags.map fun tag => { tag := tag, kind := haltKind, code := .ok, fields := [] }

/-- The results of the HALTs taken, queued in their order while the link is UP (R171, R180). -/
theorem State.answerHalts_of_up {s : State} (hu : s.link.up = true) (tags : List Byte) :
    tags.foldl (fun t tag => t.answer haltKind tag (.ok [])) s = { s with link := { s.link with
      owed := s.link.owed - tags.length, queued := s.link.queued ++ haltResults tags } } := by
  induction tags generalizing s with
  | nil => simp [haltResults]
  | cons tag tags ih =>
    have hanswer : s.answer haltKind tag (.ok []) = { s with link := { s.link with
        owed := s.link.owed - 1, queued := s.link.queued ++ haltResults [tag] } } := if_pos hu
    have hlink : (s.answer haltKind tag (.ok [])).link.up = true := by rw [hanswer]; exact hu
    rw [List.foldl_cons, ih hlink, hanswer]
    simp only [haltResults, List.map_cons, List.map_nil, List.length_cons, List.append_assoc, List.singleton_append, Nat.sub_sub,
      Nat.add_comm 1]

/-- The result of a FETCH that ends with a cause (R170). -/
def State.fetchResult (c : FetchEnd) (f : Fetch) (s : State) : Result :=
  { tag := f.tag, kind := fetchKind, code := .ok, fields := s.fetchFields c f }

/-- A fetch ends while the link is UP: the engine is IDLE, and the FETCH's result is queued before those of the HALTs (R170, R171). -/
theorem State.endFetch_of_up {s : State} (hu : s.link.up = true) (c : FetchEnd) (f : Fetch) :
    s.endFetch c f = { s with link := { s.link with
      engine := .idle, owed := s.link.owed - (1 + f.halts.length), queued := s.link.queued ++ s.fetchResult c f :: haltResults f.halts } } := by
  have hanswer : (s.setEngine .idle).answer fetchKind f.tag (.ok (s.fetchFields c f)) = { s with link := { s.link with
      engine := .idle, owed := s.link.owed - 1, queued := s.link.queued ++ [s.fetchResult c f] } } := if_pos hu
  unfold State.endFetch
  rw [hanswer]
  refine (State.answerHalts_of_up (by exact hu) f.halts).trans ?_
  simp only [List.append_assoc, List.singleton_append, Nat.sub_sub]

/-- The end of a fetch that is owed its own result and those of its HALTs and no other, field by field (R170, R171). -/
theorem State.endFetch_of_owed {s : State} {f : Fetch} (hu : s.link.up = true) (ho : s.link.owed = 1 + f.halts.length) (c : FetchEnd) :
    s.endFetch c f = { s with link := { s.link with
      engine := .idle, owed := 0
      queued := s.link.queued ++
        { tag := f.tag, kind := 0x29, code := .ok, fields := c.code :: leBytes 4 f.sent.toNat ++ leBytes 2 s.queue.entries.length } ::
          f.halts.map fun t => { tag := t, kind := 0x2A, code := .ok, fields := [] } } } := by
  rw [State.endFetch_of_up hu, ho, Nat.sub_self]
  rfl

/-! ## A fetch looks for its next record (R168, R169, R171) -/

section
variable {s : State} {f : Fetch}

theorem State.fetchLooks_halting (h : f.halts ≠ []) : s.fetchLooks f = s.endFetch .halted f :=
  if_pos (List.isEmpty_eq_false_iff.mpr h)

section
variable (h : f.halts = [])
include h

theorem State.fetchLooks_unhalted : s.fetchLooks f =
    if f.n = 0 then s.setEngine (.delivering f)
    else if f.sent.toNat = f.n then s.endFetch .count f
    else if s.queue.entries.isEmpty then s.endFetch .empty f
    else s.setEngine (.delivering f) :=
  if_neg (by rw [h]; decide)

theorem State.fetchLooks_goes_on (hn : f.n = 0 ∨ f.sent.toNat ≠ f.n ∧ s.queue.entries ≠ []) :
    s.fetchLooks f = s.setEngine (.delivering f) := by
  rw [State.fetchLooks_unhalted h]
  rcases hn with hn | ⟨hs, hq⟩
  · exact if_pos hn
  · rw [if_neg hs, if_neg (mt List.isEmpty_iff.mp hq), ite_self]

theorem State.fetchLooks_count (hn : f.n ≠ 0) (hs : f.sent.toNat = f.n) : s.fetchLooks f = s.endFetch .count f := by
  rw [State.fetchLooks_unhalted h, if_neg hn, if_pos hs]

theorem State.fetchLooks_empty (hn : f.n ≠ 0) (hs : f.sent.toNat ≠ f.n) (hq : s.queue.entries = []) :
    s.fetchLooks f = s.endFetch .empty f := by
  rw [State.fetchLooks_unhalted h, if_neg hn, if_neg hs, if_pos (List.isEmpty_iff.mpr hq)]

end

end

/-! ## FETCH and HALT (R166, R171) -/

section
variable {s : State} {n : Nat} (tag : Byte)

theorem State.beginFetch_goes_on (h : n = 0 ∨ s.queue.entries ≠ []) :
    s.beginFetch tag n = s.setEngine (.delivering { tag := tag, n := n, sent := 0, halts := [] }) :=
  State.fetchLooks_goes_on rfl (or_iff_not_imp_left.mpr fun h0 => ⟨Ne.symm h0, h.resolve_left h0⟩)

theorem State.beginFetch_empty (h0 : n ≠ 0) (hq : s.queue.entries = []) :
    s.beginFetch tag n = s.endFetch .empty { tag := tag, n := n, sent := 0, halts := [] } :=
  State.fetchLooks_empty rfl h0 (Ne.symm h0) hq

end

theorem exec_fetch_released {s : State} (h : s.resetHold.held = false) (tag : Byte) (p : List Byte) :
    exec (.fetch tag p) s = .next (s.takeFetch tag p) := whenReleased_of _ h

theorem exec_halt_released {s : State} (h : s.resetHold.held = false) (tag : Byte) (p : List Byte) :
    exec (.halt tag p) s = .next (s.takeHalt tag p) := whenReleased_of _ h

/-- A FETCH that is admitted begins its fetch on the state with the frame arrived (R166, R179). -/
theorem State.takeFetch_of {s : State} {p : List Byte} (h : s.Admits fetchKind p) (tag : Byte) :
    s.takeFetch tag p = s.arrived.beginFetch tag (fieldAt p 0 2) := by
  have hl := requestLength_le h.length
  have he : s.arrived.link.engine = .idle := h.idle
  have hu : s.arrived.link.up = true := h.up
  unfold State.takeFetch
  rw [State.arrive_of _ h.framer h.up h.room (by simp only [Config.maxPayload]; omega)]
  unfold State.checkLength
  rw [if_pos h.length]
  unfold State.engageFetch
  rw [he]
  exact if_pos hu

/-- A HALT that arrives whole goes to the request engine (R171, R179). -/
theorem State.takeHalt_of {s : State} (hf : s.link.framer ≠ .ignoring) (hu : s.link.up = true) (ho : s.link.occupancy < Config.resultPlaces)
    (tag : Byte) : s.takeHalt tag [] = s.arrived.engageHalt tag :=
  (State.arrive_of _ hf hu ho (Nat.zero_le _)).trans (if_pos rfl)

theorem LinkInterface.sendsRecord_iff (l : LinkInterface) : l.sendsRecord = true ↔ ∃ out, l.outFrame = some out ∧ out.kind = .record := by
  unfold LinkInterface.sendsRecord
  cases l.outFrame <;> simp

theorem LinkInterface.sendsRecord_eq_false {l : LinkInterface} (h : ∀ out, l.outFrame = some out → out.kind ≠ .record) :
    l.sendsRecord = false := by
  rw [← Bool.not_eq_true, l.sendsRecord_iff]
  rintro ⟨out, ho, hk⟩
  exact h out ho hk

section
variable {s : State}

theorem State.engageHalt_idle (h : s.link.engine = .idle) (tag : Byte) : s.engageHalt tag = s.answer haltKind tag (.bare .state) := by
  unfold State.engageHalt; rw [h]

section
variable {f : Fetch} (he : s.link.engine = .delivering f)
include he

theorem State.engageHalt_sending (h : s.link.sendsRecord = true) (tag : Byte) :
    s.engageHalt tag = s.setEngine (.delivering { f with halts := f.halts ++ [tag] }) := by
  unfold State.engageHalt; rw [he]; exact if_pos h

theorem State.engageHalt_ends (h : s.link.sendsRecord = false) (tag : Byte) :
    s.engageHalt tag = s.endFetch .halted { f with halts := f.halts ++ [tag] } := by
  unfold State.engageHalt; rw [he]; exact if_neg (by rw [h]; decide)

end

/-- The answer to a frame that has just arrived (R180). -/
theorem State.arrived_answer (hu : s.link.up = true) (kind tag : Byte) (r : Reply) :
    s.arrived.answer kind tag r = s.replied kind tag r :=
  if_pos (show s.arrived.link.up = true from hu)

end

/-- Settles O44: a FETCH by what its fetch finds; a HALT by the state of the request engine and the frame in progress. -/
theorem fetchesBeginAndAreHalted : Obligations.FetchesBeginAndAreHalted := by
  refine ⟨fun s n tag ha hn => ?_, fun s tag hr hu hf ho => ?_⟩
  · have hcount : fieldAt (leBytes 2 n) 0 2 = n := by rw [fieldAt_leBytes]; exact Nat.mod_eq_of_lt hn
    rw [exec_fetch_released ha.released, State.takeFetch_of ha, hcount]
    refine ⟨fun h => ?_, fun h0 hq => ?_⟩
    · rw [State.beginFetch_goes_on (s := s.arrived) tag h]; rfl
    · rw [State.beginFetch_empty (s := s.arrived) tag h0 hq, State.endFetch_of_up (s := s.arrived) ha.up]
      have howed : s.arrived.link.owed - (1 + 0) = s.link.owed := Nat.add_sub_cancel _ _
      simp only [State.fetchResult, State.fetchFields, hq, State.arrived_queue, haltResults, List.map_nil, List.length_nil, howed, State.replied]
      rw [ha.idle]
      rfl
  · rw [exec_halt_released hr, State.takeHalt_of hf hu ho]
    refine ⟨fun he => ?_, fun f he => ⟨fun hout => ?_, fun hout hh howed => ?_⟩⟩
    · rw [State.engageHalt_idle (s := s.arrived) he, State.arrived_answer hu]; rfl
    · rw [State.engageHalt_sending (s := s.arrived) he ((LinkInterface.sendsRecord_iff _).mpr hout)]; rfl
    · rw [State.engageHalt_ends (s := s.arrived) he (LinkInterface.sendsRecord_eq_false hout),
        State.endFetch_of_owed (s := s.arrived) hu (by show s.link.owed + 1 = _; rw [howed, hh]; rfl), hh]
      rfl

/-! ## RECORD_FRAME_COMPLETE (R167) -/

theorem exec_recordFrameComplete_released {s : State} (h : s.resetHold.held = false) :
    exec .recordFrameComplete s = .next s.completeRecord := whenReleased_of _ h

theorem State.completeRecord_none {s : State} (h : s.link.sendsRecord = false) : s.completeRecord = s := if_neg (by rw [h]; decide)

/-- A fetch with one more record sent (R167). -/
def Fetch.next (f : Fetch) : Fetch := { f with sent := f.sent + 1 }

/-- The last byte of a RECORD frame of a fetch goes out (R167). -/
theorem State.completeRecord_of {s : State} {f : Fetch} (hs : s.link.sendsRecord = true) (he : s.link.engine = .delivering f) :
    s.completeRecord = ({ s.freeLane with queue := s.queue.removeHead } : State).fetchLooks f.next := by
  unfold State.completeRecord; rw [if_pos hs, he]; rfl

/-- Settles O45: the head removed, then each way the fetch looks for its next record. -/
theorem recordFrameRemovesTheHead : Obligations.RecordFrameRemovesTheHead := by
  intro s e rest f out u hr
  rw [exec_recordFrameComplete_released hr]
  refine ⟨fun h => ?_, fun hout hk he hq howed hu => ?_⟩
  · rw [State.completeRecord_none (LinkInterface.sendsRecord_eq_false h)]
  · have hsends : s.link.sendsRecord = true := (LinkInterface.sendsRecord_iff _).mpr ⟨out, hout, hk⟩
    have hcomplete : s.completeRecord = u.fetchLooks f.next := by
      rw [State.completeRecord_of hsends he, RecordQueue.removeHead_cons hq, hu]
      rfl
    have hentries : u.queue.entries = rest := by rw [hu]
    have hlink : u.link = { s.link with outFrame := none } := by rw [hu]
    have hup : s.link.up = true → u.link.up = true := fun h => by rw [hlink]; exact h
    have howedu : u.link.owed = 1 + f.halts.length := by rw [hlink]; exact howed
    rw [hcomplete]
    refine ⟨fun hh h => ?_, fun hh hs h0 h => ?_, fun hh hs => ?_⟩
    · rw [State.fetchLooks_goes_on (f := f.next) hh (hentries.symm ▸ h)]
      rfl
    · by_cases hsent : (f.sent + 1).toNat = f.n
      · rw [State.fetchLooks_count (f := f.next) hh h0 hsent, State.endFetch_of_owed (f := f.next) (hup hs) howedu, hentries,
          if_pos hsent, show f.next.halts = [] from hh]
        rfl
      · have hempty : u.queue.entries = [] := hentries.trans (h.resolve_left hsent)
        rw [State.fetchLooks_empty (f := f.next) hh h0 hsent hempty, State.endFetch_of_owed (f := f.next) (hup hs) howedu, hentries,
          if_neg hsent, show f.next.halts = [] from hh]
        rfl
    · rw [State.fetchLooks_halting (f := f.next) hh, State.endFetch_of_owed (f := f.next) (hup hs) howedu, hentries]
      rfl

end Sys2Proof.Machine
end

section
/-! SUPPORT. LINK_DOWN and LINK_UP as the statement spells them out (R173, R178, R184, R185, R188, R191): O48. -/

namespace Sys2Proof.Machine

/-! ## What the link going DOWN cuts (R173, R178, R185, R188) -/

theorem Framer.cut_of_taking {f : Framer} (h : f ≠ .ignoring) : f.cut = .hunting := by
  cases f with
  | ignoring => exact absurd rfl h
  | hunting => rfl
  | receiving collected => rfl

/-- A frame in progress that is no NOTICE leaves the notice table as it is, as does an idle lane (R184). -/
theorem NoticeTable.abandon_other {t : NoticeTable} {f : Option OutFrame}
    (h : ∀ o id n x, f = some o → o.kind ≠ .notice id n x) : t.abandon f = t := by
  unfold NoticeTable.abandon
  cases f with
  | none => rfl
  | some o =>
    cases hk : o.kind with
    | notice id n x => exact absurd hk (h o id n x rfl)
    | start => simp only [hk]
    | result => simp only [hk]
    | record => simp only [hk]

/-! ## The events (R184) -/

section
variable {s : State} (h : s.resetHold.held = false)
include h

theorem exec_linkDown_released : exec .linkDown s = .next (s.setLinkSd false).dropLink := congrArg _ (if_neg (by rw [h]; decide))

theorem exec_linkDown_up (hu : s.link.up = true) : exec .linkDown s = .next { s with
    pins := { s.pins with linkSd := false }, notices := s.notices.abandon s.link.outFrame, link := s.link.drop } := by
  rw [exec_linkDown_released h]
  exact congrArg _ (if_pos hu)

theorem exec_linkDown_down (hu : s.link.up = false) : exec .linkDown s = .next { s with pins := { s.pins with linkSd := false } } := by
  rw [exec_linkDown_released h]
  exact congrArg _ (if_neg (by rw [State.setLinkSd_link, hu]; decide))

theorem exec_linkUp_released : exec .linkUp s = .next ((s.setLinkSd true).setUp true) := congrArg _ (if_neg (by rw [h]; decide))

end

/-- Settles O48: the link that goes DOWN is the one dropped, part by part; one that is DOWN, or comes UP, changes no more than its state. -/
theorem linkGoesDownAndComesUp : Obligations.LinkGoesDownAndComesUp := by
  intro s hr
  refine ⟨fun hu => ⟨_, exec_linkDown_up hr hu, rfl, rfl, rfl, rfl, rfl, rfl, rfl, rfl, ?_, ?_, ?_, ?_, ?_, ?_, ?_⟩,
    fun hu => exec_linkDown_down hr hu, exec_linkUp_released hr⟩
  · rintro ⟨f, he⟩
    show s.link.engine.cut = .idle
    rw [he]; rfl
  · intro he
    show s.link.engine.cut = .idle
    rw [he]; rfl
  · intro r he
    show s.link.engine.cut = .executing { r with lost := true }
    rw [he]; rfl
  · intro hf
    show s.link.framer.cut = .ignoring
    rw [hf]; rfl
  · exact Framer.cut_of_taking
  · intro b id n x ho
    show s.notices.abandon s.link.outFrame = _
    rw [ho]; rfl
  · exact NoticeTable.abandon_other

end Sys2Proof.Machine
end

section
/-! SUPPORT. A complete frame, once the framer has it (R178 to R182, R185): what it does by its kind, and what the owning block of its request can change
of what the link interface's invariant reads. -/

namespace Sys2Proof.Machine

/-! ## A complete frame by its kind (R179, R198) -/

/-- What a frame does once it has arrived whole, with what becomes of a request other than FETCH and HALT in the request engine. -/
def State.frameAct (engage : State → State) (kind tag : Byte) (payload : List Byte) : State → State :=
  if kind = fetchKind then State.checkLength fetchKind tag payload (State.engageFetch tag payload)
  else if kind = haltKind then State.checkLength haltKind tag payload (State.engageHalt tag)
  else if requestLength kind = none then State.answer kind tag (.bare .unknown)
  else State.checkLength kind tag payload engage

/-- Every frame arrives in one way; its kind decides only what it then does (R179). -/
theorem State.takeFrameWith_eq (engage : State → State) (kind tag : Byte) (payload : List Byte) (s : State) :
    s.takeFrameWith engage kind tag payload = s.arrive payload (State.frameAct engage kind tag payload) := by
  unfold State.takeFrameWith State.frameAct
  split_ifs <;> rfl

theorem State.arrive_ignoring {s : State} (h : s.link.framer = .ignoring) (payload : List Byte) (act : State → State) :
    s.arrive payload act = s := by
  unfold State.arrive; rw [h]

/-- Outside IGNORING a complete frame is judged with the framer hunting again (R178). -/
theorem State.arrive_taking {s : State} (h : s.link.framer ≠ .ignoring) (payload : List Byte) (act : State → State) :
    s.arrive payload act = (s.setFramer .hunting).judgeFrame payload act := by
  unfold State.arrive
  cases hf : s.link.framer with
  | ignoring => exact absurd hf h
  | hunting => rfl
  | receiving collected => rfl

section
variable {engage : State → State} {kind tag : Byte} {payload : List Byte}

/-- A kind that is not a request kind is answered UNKNOWN (R179). -/
theorem State.frameAct_unknown (h : requestLength kind = none) :
    State.frameAct engage kind tag payload = State.answer kind tag (.bare .unknown) := by
  have hfetch : kind ≠ fetchKind := by rintro rfl; exact nomatch h
  have hhalt : kind ≠ haltKind := by rintro rfl; exact nomatch h
  unfold State.frameAct
  rw [if_neg hfetch, if_neg hhalt, if_pos h]

/-- A request kind with a wrong length is answered LENGTH (R179). -/
theorem State.frameAct_wrong_length {n : Nat} (h : requestLength kind = some n) (hn : payload.length ≠ n) :
    State.frameAct engage kind tag payload = State.answer kind tag (.bare .length) := by
  have hlen : requestLength kind ≠ some payload.length := by rw [h]; exact fun e => hn (Option.some.inj e).symm
  have checked : ∀ act, State.checkLength kind tag payload act = State.answer kind tag (.bare .length) := fun act => funext fun _ => if_neg hlen
  have hsome : requestLength kind ≠ none := by rw [h]; exact Option.some_ne_none n
  unfold State.frameAct
  split_ifs with hf hh
  · subst hf; exact checked _
  · subst hh; exact checked _
  · exact checked _

section
variable (h : requestLength kind = some payload.length)
include h

theorem State.checkLength_right (act : State → State) : State.checkLength kind tag payload act = act := funext fun _ => if_pos h

theorem State.frameAct_fetch (hk : kind = fetchKind) : State.frameAct engage kind tag payload = State.engageFetch tag payload := by
  subst hk
  exact (if_pos rfl).trans (State.checkLength_right h _)

theorem State.frameAct_halt (hk : kind = haltKind) : State.frameAct engage kind tag payload = State.engageHalt tag := by
  subst hk
  exact (if_neg (by decide)).trans ((if_pos rfl).trans (State.checkLength_right h _))

theorem State.frameAct_request (hfetch : kind ≠ fetchKind) (hhalt : kind ≠ haltKind) : State.frameAct engage kind tag payload = engage := by
  unfold State.frameAct
  rw [if_neg hfetch, if_neg hhalt, if_neg (by rw [h]; exact Option.some_ne_none _), State.checkLength_right h]

end

end

/-! ## What the link's invariant reads -/

/-- Two states with the same inputs and the same hold in reset. -/
structure SameInputs (s t : State) : Prop where
  pins : t.pins = s.pins
  resetHold : t.resetHold = s.resetHold

/-- Two states that agree on what the link interface's invariant speaks of; of the record queue, that it does not run empty under a RECORD frame. -/
structure SameLink (s t : State) : Prop where
  link : t.link = s.link
  linkSd : t.pins.linkSd = s.pins.linkSd
  resetHold : t.resetHold = s.resetHold
  kept : s.link.sendsRecord = true → s.queue.entries ≠ [] → t.queue.entries ≠ []

theorem SameInputs.refl (s : State) : SameInputs s s := ⟨rfl, rfl⟩

theorem SameInputs.trans {s t u : State} (a : SameInputs s t) (b : SameInputs t u) : SameInputs s u :=
  ⟨b.pins.trans a.pins, b.resetHold.trans a.resetHold⟩

theorem SameInputs.linkBlind (s : State) : LinkBlind (SameInputs s) :=
  ⟨fun _ _ h => ⟨h.pins, h.resetHold⟩, fun _ _ h => ⟨h.pins, h.resetHold⟩⟩

theorem SameLink.refl (s : State) : SameLink s s := ⟨rfl, rfl, rfl, fun _ => id⟩

theorem SameLink.trans {s t u : State} (a : SameLink s t) (b : SameLink t u) : SameLink s u :=
  ⟨b.link.trans a.link, b.linkSd.trans a.linkSd, b.resetHold.trans a.resetHold, fun h => b.kept (a.link ▸ h) ∘ a.kept h⟩

theorem Acts.sameLink {i : FeedId} {s t : State} (a : Acts i s t) : SameLink s t :=
  ⟨a.same.link, by rw [a.same.pins], a.same.resetHold, fun _ => a.kept⟩

theorem LineActs.sameLink {i : LineId} {s t : State} (a : LineActs i s t) : SameLink s t :=
  ⟨a.link, by rw [a.pins], a.resetHold, fun _ => a.kept⟩

theorem TimeActs.sameLink {s t : State} (a : TimeActs s t) : SameLink s t :=
  ⟨a.same.link, by rw [a.same.pins], a.same.resetHold, fun _ => a.kept⟩

/-! ## The owning blocks (R182) -/

/-- A request to a line port leaves the inputs and the hold alone. -/
theorem SameInputs.of_line {f : List Byte → State → State × Reply} (h : ∀ p s, (f p s).1 = s ∨ ∃ i, LineActs i s (f p s).1) (p : List Byte)
    (s : State) : SameInputs s (f p s).1 := by
  rcases h p s with e | ⟨i, a⟩
  · rw [e]; exact .refl s
  · exact ⟨a.pins, a.resetHold⟩

/-- A request to a feed leaves the inputs and the hold alone. -/
theorem SameInputs.of_feed {f : List Byte → State → State × Reply} (h : ∀ p s, ∃ i, Acts i s (f p s).1 ∧ Moves i s (f p s).1 0 0)
    (p : List Byte) (s : State) : SameInputs s (f p s).1 := by
  obtain ⟨i, a, -⟩ := h p s
  exact ⟨a.same.pins, a.same.resetHold⟩

theorem TimeActs.sameInputs {s t : State} (a : TimeActs s t) : SameInputs s t := ⟨a.same.pins, a.same.resetHold⟩

/-- No owning block changes an input or the hold. -/
theorem SameInputs.owners (s : State) : OwnersKeep (SameInputs s) where
  toLinkBlind := SameInputs.linkBlind s
  enableLine p t h := h.trans (.of_line LineActs.ownEnableLine p t)
  disableLine p t h := h.trans (.of_line LineActs.ownDisableLine p t)
  configureLine p t h := h.trans (.of_line LineActs.ownConfigureLine p t)
  writeSelector p t h := by
    unfold Machine.ownWriteSelector; split
    · exact ⟨h.pins, h.resetHold⟩
    · exact h
  clearSelector p t h := by
    unfold Machine.ownClearSelector; split
    · exact ⟨h.pins, h.resetHold⟩
    · exact h
  configureFeed p t h := h.trans (.of_feed Acts.ownConfigureFeed p t)
  openFeed p t h := h.trans (.of_feed Acts.ownOpenFeed p t)
  closeFeed p t h := h.trans (.of_feed Acts.ownCloseFeed p t)
  setTime p t h := h.trans (TimeActs.ownSetTime p t).sameInputs
  adjustTime p t h := h.trans (TimeActs.ownAdjustTime p t).sameInputs
  slew p t h := h.trans (TimeActs.ownSlew p t).sameInputs
  setRate p t h := h.trans (TimeActs.ownSetRate p t).sameInputs
  configureReference p t h := h.trans (TimeActs.ownConfigureReference p t).sameInputs
  configureDiscipline p t h := h.trans (TimeActs.ownConfigureDiscipline p t).sameInputs
  track p t h := h.trans (TimeActs.ownTrack p t).sameInputs
  measure p t h := h.trans (TimeActs.ownMeasure p t).sameInputs
  configureQueue p t h := by
    unfold Machine.ownConfigureQueue; simp only; split
    · exact ⟨h.pins, h.resetHold⟩
    · exact h

theorem SameInputs.ownOf (kind : Byte) (p : List Byte) (s : State) : SameInputs s (ownOf kind p s).1 :=
  (SameInputs.owners s).ownOf kind p s (.refl s)

/-- The link interface once a RESTART is carried out: the framer ignores what follows, and the restart may be due (R185, R191). -/
def LinkInterface.closing (due : Bool) (l : LinkInterface) : LinkInterface := { l with framer := .ignoring, restartDue := due }

/-- The link interface behind the owning block of a kind: only that of RESTART changes it (R182, R191). -/
def LinkInterface.behindOwner (kind : Byte) (l : LinkInterface) : LinkInterface :=
  if kind = restartKind then l.closing (l.restartDue || !l.up) else l

theorem ownOf_link (kind : Byte) (p : List Byte) (s : State) : (ownOf kind p s).1.link = s.link.behindOwner kind := by
  unfold LinkInterface.behindOwner
  split
  · rename_i hk; subst hk; rfl
  · rename_i hk; exact link_ownOf hk p s

/-! What no owning block changes of the link interface. -/

@[simp] theorem LinkInterface.behindOwner_up (kind : Byte) (l : LinkInterface) : (l.behindOwner kind).up = l.up := by
  unfold LinkInterface.behindOwner; split <;> rfl
@[simp] theorem LinkInterface.behindOwner_engine (kind : Byte) (l : LinkInterface) : (l.behindOwner kind).engine = l.engine := by
  unfold LinkInterface.behindOwner; split <;> rfl
@[simp] theorem LinkInterface.behindOwner_queued (kind : Byte) (l : LinkInterface) : (l.behindOwner kind).queued = l.queued := by
  unfold LinkInterface.behindOwner; split <;> rfl
@[simp] theorem LinkInterface.behindOwner_owed (kind : Byte) (l : LinkInterface) : (l.behindOwner kind).owed = l.owed := by
  unfold LinkInterface.behindOwner; split <;> rfl
@[simp] theorem LinkInterface.behindOwner_sendsRecord (kind : Byte) (l : LinkInterface) : (l.behindOwner kind).sendsRecord = l.sendsRecord := by
  unfold LinkInterface.behindOwner; split <;> rfl
@[simp] theorem LinkInterface.behindOwner_startOwed (kind : Byte) (l : LinkInterface) : (l.behindOwner kind).startOwed = l.startOwed := by
  unfold LinkInterface.behindOwner; split <;> rfl

/-- The owning block does not look at the engine or at what is owed. -/
theorem LinkInterface.behindOwner_engage (kind : Byte) (l : LinkInterface) (e : Engine) (n : Nat) :
    LinkInterface.behindOwner kind { l with engine := e, owed := n } = { l.behindOwner kind with engine := e, owed := n } := by
  unfold LinkInterface.behindOwner; split <;> rfl

theorem LinkInterface.behindOwner_framer {kind : Byte} (h : kind = restartKind) (l : LinkInterface) :
    (l.behindOwner kind).framer = .ignoring := by
  unfold LinkInterface.behindOwner; rw [if_pos h]; rfl

/-- The owning block's work, for what the link's invariant reads: the inputs stay, and the link is the one behind the owner. -/
theorem SameLink.ownOf {s : State} (h : s.link.sendsRecord = false) (kind : Byte) (p : List Byte) :
    SameLink { s with link := s.link.behindOwner kind } (ownOf kind p s).1 := by
  have same := SameInputs.ownOf kind p s
  refine ⟨ownOf_link kind p s, by rw [same.pins], same.resetHold, fun hs => ?_⟩
  have hrecord : (s.link.behindOwner kind).sendsRecord = false := by rw [LinkInterface.behindOwner_sendsRecord, h]
  exact nomatch hrecord.symm.trans hs

end Sys2Proof.Machine
end

section
/-! SUPPORT. The link interface's invariant (R178, R180, R181, R183 to R185, R191, R193): kept by every event, and so by every step (O59). -/

namespace Sys2Proof.Machine

/-! ## What the invariant gives -/

theorem LinkInterface.kind_ne_record {l : LinkInterface} (h : l.sendsRecord = false) {o : OutFrame} (ho : l.outFrame = some o) :
    o.kind ≠ .record := fun hk => nomatch h.symm.trans (l.sendsRecord_iff.mpr ⟨o, ho, hk⟩)

theorem State.LinkSound.congr {s t : State} (h : s.LinkSound) (e : SameLink s t) : t.LinkSound where
  occupancy := by rw [e.link]; exact h.occupancy
  owed := by rw [e.link]; exact h.owed
  executing := by rw [e.link]; exact h.executing
  halting := by rw [e.link]; exact h.halting
  down := by rw [e.link]; exact h.down
  input := by rw [e.link, e.linkSd, e.resetHold]; exact h.input
  backed := by
    intro f hf
    rw [e.link] at hf
    have hb := h.backed f hf
    cases hk : f.kind with
    | start => simp only [hk] at hb ⊢; rw [e.link]; exact hb
    | result => simp only [hk] at hb ⊢; rw [e.link]; exact hb
    | notice id n x => trivial
    | record =>
      simp only [hk] at hb ⊢
      obtain ⟨hentries, hengine⟩ := hb
      exact ⟨e.kept (s.link.sendsRecord_iff.mpr ⟨f, hf, hk⟩) hentries, by rw [e.link]; exact hengine⟩
  starting := by rw [e.link]; exact h.starting
  restarting := by rw [e.link]; exact h.restarting
  asked := by rw [e.link]; exact h.asked

section
variable {s : State} (h : s.LinkSound)
include h

theorem State.LinkSound.backed_start {f : OutFrame} (hf : s.link.outFrame = some f) (hk : f.kind = .start) : s.link.startOwed ≠ none := by
  have hb := h.backed f hf
  rw [hk] at hb; exact hb

theorem State.LinkSound.backed_result {f : OutFrame} (hf : s.link.outFrame = some f) (hk : f.kind = .result) : s.link.queued ≠ [] := by
  have hb := h.backed f hf
  rw [hk] at hb; exact hb

/-- A RECORD frame in progress sends the queue's head for the running fetch (R167). -/
theorem State.LinkSound.backed_record (hs : s.link.sendsRecord = true) : s.queue.entries ≠ [] ∧ ∃ g, s.link.engine = .delivering g := by
  obtain ⟨f, hf, hk⟩ := s.link.sendsRecord_iff.mp hs
  have hb := h.backed f hf
  rw [hk] at hb; exact hb

theorem State.LinkSound.no_record (he : ∀ g, s.link.engine ≠ .delivering g) : s.link.sendsRecord = false := by
  rw [← Bool.not_eq_true]
  intro hs
  obtain ⟨-, g, hg⟩ := h.backed_record hs
  exact he g hg

/-- Outside IGNORING no START is owed (R193). -/
theorem State.LinkSound.started (hf : s.link.framer ≠ .ignoring) : s.link.startOwed = none := by
  by_contra hs
  exact hf (h.starting hs).1

theorem State.LinkSound.started_of_engine (he : s.link.engine ≠ .idle) : s.link.startOwed = none := by
  by_contra hs
  exact he (h.starting hs).2.1

theorem State.LinkSound.up_of_outFrame {f : OutFrame} (hf : s.link.outFrame = some f) : s.link.up = true := by
  by_contra hu
  obtain ⟨-, -, hnone, -⟩ := h.down (Bool.not_eq_true _ ▸ hu)
  exact nomatch hf.symm.trans hnone

/-- A running fetch needs the link UP (R173). -/
theorem State.LinkSound.up_of_delivering {f : Fetch} (he : s.link.engine = .delivering f) : s.link.up = true := by
  by_contra hu
  obtain ⟨-, hcut, -, -⟩ := h.down (Bool.not_eq_true _ ▸ hu)
  rw [he] at hcut
  exact nomatch hcut

/-- While the link is DOWN no result is owed (R184, R185). -/
theorem State.LinkSound.owed_of_down (hu : s.link.up = false) : s.link.owed = 0 := by
  obtain ⟨-, hcut, -, -⟩ := h.down hu
  rw [h.owed]
  cases he : s.link.engine with
  | idle => rfl
  | executing r =>
    rw [he] at hcut
    have hlost : true = r.lost := congrArg Request.lost (Engine.executing.inj hcut)
    exact if_pos hlost.symm
  | delivering f => rw [he] at hcut; exact nomatch hcut

end

/-! ## One way of serving requests -/

/-- The request engine in a state with the results it then owes, results queued, and what is left of the outbound frame. -/
def State.served (out : Option OutFrame) (e : Engine) (rs : List Result) (s : State) : State :=
  { s with link := { s.link with outFrame := out, engine := e, owed := e.owes, queued := s.link.queued ++ rs } }

/-- Whatever the request engine does once the START has gone out, the invariant is kept when the results have room, the engine and the frame in
progress agree, and nothing of it happens on a link that is DOWN. -/
theorem State.LinkSound.served {s : State} (h : s.LinkSound) {out : Option OutFrame} {e : Engine} {rs : List Result}
    (hstart : s.link.startOwed = none)
    (hout : ∀ f, out = some f → s.link.outFrame = some f)
    (hroom : s.link.queued.length + rs.length + e.owes ≤ Config.resultPlaces)
    (hexecuting : ∀ r, e = .executing r → r.Owned)
    (hhalting : ∀ f, e = .delivering f → f.halts ≠ [] → ∃ o, out = some o ∧ o.kind = .record)
    (hrecord : ∀ o, out = some o → o.kind = .record → ∃ g, e = .delivering g)
    (hdown : s.link.up = false → rs = [] ∧ e.cut = e)
    (hasked : ∀ r ∈ rs, r.isRestart = true → s.link.framer = .ignoring) : (s.served out e rs).LinkSound where
  occupancy := by
    show (s.link.queued ++ rs).length + e.owes ≤ _
    rw [List.length_append]; exact hroom
  owed := rfl
  executing := hexecuting
  halting f he hh := (LinkInterface.sendsRecord_iff _).mpr (hhalting f he hh)
  down hu := by
    obtain ⟨hqueued, -, hnone, hframer⟩ := h.down hu
    obtain ⟨hrs, hcut⟩ := hdown hu
    refine ⟨?_, hcut, ?_, hframer⟩
    · show s.link.queued ++ rs = []
      rw [hqueued, hrs]; rfl
    · show out = none
      cases ho : out with
      | none => rfl
      | some f => exact nomatch (hout f ho).symm.trans hnone
  input := h.input
  backed f hf := by
    cases hk : f.kind with
    | start => exact h.backed_start (hout f hf) hk
    | result => exact fun hnil => h.backed_result (hout f hf) hk (List.append_eq_nil_iff.mp hnil).1
    | notice id n x => trivial
    | record =>
      exact ⟨(h.backed_record (s.link.sendsRecord_iff.mpr ⟨f, hout f hf, hk⟩)).1, hrecord f hf hk⟩
  starting hs := absurd hstart hs
  restarting := h.restarting
  asked r hr := by
    rcases List.mem_append.mp hr with hr | hr
    · exact h.asked r hr
    · exact hasked r hr

section
variable {s : State} (h : s.LinkSound) (hstart : s.link.startOwed = none)
include h hstart

/-- A RESTART carried out closes the framer (R191). -/
theorem State.LinkSound.closing (due : Bool) : State.LinkSound { s with link := s.link.closing due } where
  occupancy := h.occupancy
  owed := h.owed
  executing := h.executing
  halting := h.halting
  down hu := by
    obtain ⟨hqueued, hcut, hnone, -⟩ := h.down hu
    exact ⟨hqueued, hcut, hnone, rfl⟩
  input := h.input
  backed := h.backed
  starting hs := absurd hstart hs
  restarting _ := ⟨rfl, hstart⟩
  asked _ _ _ := rfl

theorem State.LinkSound.behindOwner (kind : Byte) : State.LinkSound { s with link := s.link.behindOwner kind } := by
  unfold LinkInterface.behindOwner
  split
  · exact h.closing hstart _
  · exact h

end

/-! ## Answers and the owning block's results (R179 to R182, R185) -/

theorem State.answer_of_up {s : State} (hu : s.link.up = true) (kind tag : Byte) (r : Reply) :
    s.answer kind tag r = { s with link := { s.link with
      owed := s.link.owed - 1, queued := s.link.queued ++ [{ tag := tag, kind := kind, code := r.code, fields := r.fields }] } } := if_pos hu

theorem State.answer_of_down {s : State} (hu : s.link.up = false) (kind tag : Byte) (r : Reply) : s.answer kind tag r = s :=
  if_neg (by rw [hu]; decide)

theorem State.owe_of_up {s : State} (hu : s.link.up = true) : s.owe = { s with link := { s.link with owed := s.link.owed + 1 } } := if_pos hu

theorem State.owe_of_down {s : State} (hu : s.link.up = false) : s.owe = s := if_neg (by rw [hu]; decide)

@[simp] theorem State.owe_engine (s : State) : s.owe.link.engine = s.link.engine := by
  unfold State.owe; split <;> rfl

theorem SameLink.answer {s t : State} (e : SameLink s t) (kind tag : Byte) (r : Reply) : SameLink (s.answer kind tag r) (t.answer kind tag r) := by
  cases hu : s.link.up with
  | true =>
    rw [State.answer_of_up hu, State.answer_of_up (e.link ▸ hu)]
    exact ⟨by rw [e.link], e.linkSd, e.resetHold, e.kept⟩
  | false =>
    rw [State.answer_of_down hu, State.answer_of_down (e.link ▸ hu)]
    exact e

theorem SameLink.setUp {s t : State} (e : SameLink s t) (up : Bool) : SameLink (s.setUp up) (t.setUp up) :=
  ⟨by unfold State.setUp; rw [e.link], e.linkSd, e.resetHold, e.kept⟩

/-- The owning block's one result, on a link that is UP (R182). -/
theorem State.carryOut_link_of_up {s : State} (hu : s.link.up = true) (kind tag : Byte) (p : List Byte) : ∃ q : Result,
    q.kind = kind ∧ q.tag = tag ∧ (s.carryOut kind tag (ownOf kind p)).link =
      { s.link.behindOwner kind with owed := s.link.owed - 1, queued := s.link.queued ++ [q] } := by
  refine ⟨{ tag := tag, kind := kind, code := (ownOf kind p s).2.code, fields := (ownOf kind p s).2.fields }, rfl, rfl, ?_⟩
  unfold State.carryOut
  rw [State.answer_of_up (by rw [ownOf_link, LinkInterface.behindOwner_up]; exact hu), ownOf_link, LinkInterface.behindOwner_owed,
    LinkInterface.behindOwner_queued]

/-- The owning block's result discarded, on a link that is DOWN (R185). -/
theorem State.carryOut_link_of_down {s : State} (hu : s.link.up = false) (kind tag : Byte) (p : List Byte) :
    (s.carryOut kind tag (ownOf kind p)).link = s.link.behindOwner kind := by
  unfold State.carryOut
  rw [State.answer_of_down (by rw [ownOf_link, LinkInterface.behindOwner_up]; exact hu), ownOf_link]

/-- No result but an OK one is a RESTART's (R191). -/
theorem Result.isRestart_iff (r : Result) : r.isRestart = true ↔ r.kind = restartKind ∧ r.code = .ok := by
  unfold Result.isRestart
  rw [Bool.and_eq_true, beq_iff_eq, beq_iff_eq]

section
variable {s : State} (h : s.LinkSound)
include h

/-- A frame that has arrived whole and is answered at once: one more result is queued, and the engine is as it was. -/
theorem State.LinkSound.answer_owe (hstart : s.link.startOwed = none) (hroom : s.link.occupancy < Config.resultPlaces)
    (kind tag : Byte) {r : Reply} (hr : r.code ≠ .ok) : (s.owe.answer kind tag r).LinkSound := by
  cases hu : s.link.up with
  | false => rw [State.owe_of_down hu, State.answer_of_down hu]; exact h
  | true =>
    rw [State.owe_of_up hu, State.answer_of_up (by exact hu), Nat.add_sub_cancel, h.owed]
    refine h.served (out := s.link.outFrame) (e := s.link.engine) hstart (fun _ hf => hf) ?_ h.executing ?_ ?_ (fun hd => ?_) ?_
    · have hocc : s.link.queued.length + s.link.owed < Config.resultPlaces := hroom
      rw [List.length_singleton, ← h.owed]; omega
    · exact fun f he hh => s.link.sendsRecord_iff.mp (h.halting f he hh)
    · exact fun o ho hk => (h.backed_record (s.link.sendsRecord_iff.mpr ⟨o, ho, hk⟩)).2
    · exact nomatch hu.symm.trans hd
    · intro q hq hrestart
      rw [List.mem_singleton.mp hq, Result.isRestart_iff] at hrestart
      exact absurd hrestart.2 hr

section
variable (hstart : s.link.startOwed = none) (hrecord : s.link.sendsRecord = false)
include hstart hrecord

/-- The engine is IDLE again, with no RECORD frame in progress. -/
theorem State.LinkSound.served_idle {rs : List Result} (hroom : s.link.queued.length + rs.length ≤ Config.resultPlaces)
    (hdown : s.link.up = false → rs = []) (hasked : ∀ r ∈ rs, r.isRestart = true → s.link.framer = .ignoring) :
    (s.served s.link.outFrame .idle rs).LinkSound := by
  refine h.served hstart (fun _ hf => hf) hroom nofun nofun (fun _ ho hk => ?_) (fun hu => ⟨hdown hu, rfl⟩) hasked
  exact absurd hk (LinkInterface.kind_ne_record hrecord ho)

/-- The owning block's result queued on a link that is UP: the engine is IDLE, and nothing else is owed (R181, R182). -/
theorem State.LinkSound.carryOut_of_up (hu : s.link.up = true) (hroom : s.link.queued.length < Config.resultPlaces) {n : Nat} (hn : n = 1)
    (kind tag : Byte) (p : List Byte) :
    (State.carryOut kind tag (ownOf kind p) { s with link := { s.link with engine := .idle, owed := n } }).LinkSound := by
  subst hn
  have hsame := SameLink.ownOf (s := { s with link := { s.link with engine := .idle, owed := 1 } }) hrecord kind p
  refine State.LinkSound.congr ?_ (hsame.answer kind tag _)
  rw [LinkInterface.behindOwner_engage, State.answer_of_up ((s.link.behindOwner_up kind).trans hu)]
  refine (h.behindOwner hstart kind).served_idle (by simpa) (by simpa) (by simpa) (by simp [hu]) fun q hq hrestart => ?_
  rw [List.mem_singleton.mp hq, Result.isRestart_iff] at hrestart
  exact s.link.behindOwner_framer hrestart.1

/-- The owning block's result discarded: the request acts as while the link is DOWN, whatever the link is by then (R185). -/
theorem State.LinkSound.carryOut_lost (howed : s.link.owed = 0) (kind tag : Byte) (p : List Byte) :
    ((State.carryOut kind tag (ownOf kind p) { s with link := { s.link with engine := .idle, up := false } }).setUp s.link.up).LinkSound := by
  have hsame := SameLink.ownOf (s := { s with link := { s.link with engine := .idle, up := false } }) hrecord kind p
  refine State.LinkSound.congr ?_ ((hsame.answer kind tag _).setUp s.link.up)
  have hroom : s.link.queued.length + ([] : List Result).length ≤ Config.resultPlaces := Nat.le_of_add_right_le h.occupancy
  rw [State.answer_of_down (LinkInterface.behindOwner_up kind _)]
  unfold LinkInterface.behindOwner
  split
  · have hsound := (h.closing hstart true).served_idle hstart hrecord hroom (fun _ => rfl) nofun
    simpa [State.served, State.setUp, LinkInterface.closing, Engine.owes, howed] using hsound
  · have hsound := h.served_idle hstart hrecord hroom (fun _ => rfl) nofun
    simpa [State.served, State.setUp, Engine.owes, howed] using hsound

end

end

/-! ## The request engine takes a frame that has arrived whole (R166, R171, R181) -/

theorem SameLink.relink {s t : State} (e : SameLink s t) {l : LinkInterface} (hl : l.sendsRecord = true → s.link.sendsRecord = true) :
    SameLink { s with link := l } { t with link := l } :=
  ⟨rfl, e.linkSd, e.resetHold, fun hs => e.kept (hl hs)⟩

section
variable {s : State} (h : s.LinkSound) (hstart : s.link.startOwed = none) (hroom : s.link.occupancy < Config.resultPlaces)
include h hstart hroom

/-- A request command is carried out, or turned away BUSY (R181). -/
theorem State.LinkSound.engage (kind tag : Byte) (p : List Byte) : (s.owe.engage kind tag (ownOf kind p)).LinkSound := by
  have busy := h.answer_owe hstart hroom kind tag (r := .bare .busy) (by decide)
  have hengine := s.owe_engine
  unfold State.engage
  rw [hengine]
  cases he : s.link.engine with
  | executing r => exact busy
  | delivering f => exact busy
  | idle =>
    have hrecord := h.no_record (by rw [he]; nofun)
    have howed : s.link.owed = 0 := by rw [h.owed, he]; rfl
    cases hu : s.link.up with
    | true =>
      have hidle : s.owe = { s with link := { s.link with engine := .idle, owed := s.link.owed + 1 } } := by
        rw [State.owe_of_up hu, ← he]
      rw [hidle]
      exact h.carryOut_of_up hstart hrecord hu (Nat.lt_of_le_of_lt (Nat.le_add_right _ _) hroom) (by rw [howed]) kind tag p
    | false =>
      have hidle : s = { s with link := { s.link with engine := .idle, up := false } } := by rw [← he, ← hu]
      have hlost := h.carryOut_lost hstart hrecord howed kind tag p
      have hup : (s.carryOut kind tag (ownOf kind p)).link.up = false := by
        rw [State.carryOut_link_of_down hu, LinkInterface.behindOwner_up, hu]
      rw [← hidle, hu] at hlost
      rw [State.owe_of_down hu]
      refine hlost.congr ⟨?_, rfl, rfl, fun _ => id⟩
      show _ = { (s.carryOut kind tag (ownOf kind p)).link with up := false }
      rw [← hup]

/-- A request from the lane enters EXECUTING, its result lost when the link is DOWN, or is turned away BUSY (R181, R185). -/
theorem State.LinkSound.handToOwner {kind : Byte} {p : List Byte} (hlen : requestLength kind = some p.length) (hfetch : kind ≠ fetchKind)
    (hhalt : kind ≠ haltKind) (tag : Byte) : (s.owe.handToOwner kind tag p).LinkSound := by
  have busy := h.answer_owe hstart hroom kind tag (r := .bare .busy) (by decide)
  have hengine := s.owe_engine
  unfold State.handToOwner
  rw [hengine]
  cases he : s.link.engine with
  | executing r => exact busy
  | delivering f => exact busy
  | idle =>
    have hrecord := h.no_record (by rw [he]; nofun)
    have howed : s.link.owed = 0 := by rw [h.owed, he]; rfl
    have hqueued : s.link.queued.length < Config.resultPlaces := Nat.lt_of_le_of_lt (Nat.le_add_right _ _) hroom
    have hsound := h.served (out := s.link.outFrame) (rs := [])
      (e := .executing { kind := kind, tag := tag, payload := p, lost := !s.link.up }) hstart (fun _ hf => hf)
      (by show s.link.queued.length + 0 + (if !s.link.up then 0 else 1) ≤ _; split <;> omega)
      (by rintro r ⟨⟩; exact ⟨hlen, hfetch, hhalt⟩) nofun
      (fun _ ho hk => absurd hk (LinkInterface.kind_ne_record hrecord ho))
      (fun hu => ⟨rfl, by rw [hu]; rfl⟩) nofun
    cases hu : s.link.up with
    | true => rw [State.owe_of_up hu]; simpa [State.setEngine, State.served, Engine.owes, hu, howed] using hsound
    | false => rw [State.owe_of_down hu]; simpa [State.setEngine, State.served, Engine.owes, hu, howed] using hsound

end

/-! A fetch that ends, or goes on: `s` is the state before, and `t` the one that looks for its next record, with no RECORD frame on the lane. -/

section
variable {s t : State} {f : Fetch} {out : Option OutFrame} (h : s.LinkSound) (hstart : s.link.startOwed = none) (hu : s.link.up = true)
  (hout : ∀ o, out = some o → s.link.outFrame = some o ∧ o.kind ≠ .record)
  (hroom : s.link.queued.length + (1 + f.halts.length) ≤ Config.resultPlaces)
  (ht : SameLink { s with link := { s.link with outFrame := out, owed := 1 + f.halts.length } } t)
include h hstart hu hout hroom ht

theorem State.LinkSound.endFetch (c : FetchEnd) : (t.endFetch c f).LinkSound := by
  have hresults : ∀ r ∈ t.fetchResult c f :: haltResults f.halts, r.isRestart = true → s.link.framer = .ignoring := by
    intro r hr hrestart
    have hkind : r.kind = fetchKind ∨ r.kind = haltKind := by
      rcases List.mem_cons.mp hr with rfl | hr
      · exact .inl rfl
      · obtain ⟨tag, -, rfl⟩ := List.mem_map.mp hr; exact .inr rfl
    rw [Result.isRestart_iff] at hrestart
    rcases hkind with hk | hk <;> exact absurd (hk.symm.trans hrestart.1) (by decide)
  have hlength : (t.fetchResult c f :: haltResults f.halts).length = 1 + f.halts.length := by
    rw [List.length_cons, haltResults, List.length_map, Nat.add_comm]
  have hsound := h.served (out := out) (e := .idle) hstart (fun o ho => (hout o ho).1) (by rw [hlength]; exact hroom) nofun nofun
    (fun o ho hk => absurd hk (hout o ho).2) (fun hd => nomatch hu.symm.trans hd) hresults
  refine hsound.congr ?_
  rw [State.endFetch_of_up (by rw [ht.link]; exact hu), ht.link, Nat.sub_self]
  exact ht.relink id

theorem State.LinkSound.fetchLooks : (t.fetchLooks f).LinkSound := by
  by_cases hh : f.halts = []
  · have ends := h.endFetch hstart hu hout hroom ht
    have goes : (t.setEngine (.delivering f)).LinkSound := by
      have hsound := h.served (out := out) (e := .delivering f) (rs := []) hstart (fun o ho => (hout o ho).1) hroom nofun
        (by rintro g ⟨⟩ hne; exact absurd hh hne) (fun o ho hk => absurd hk (hout o ho).2) (fun hd => nomatch hu.symm.trans hd) nofun
      refine hsound.congr ?_
      unfold State.served State.setEngine
      rw [ht.link, List.append_nil]
      exact ht.relink id
    rw [State.fetchLooks_unhalted hh]
    split_ifs
    · exact goes
    · exact ends .count
    · exact ends .empty
    · exact goes
  · rw [State.fetchLooks_halting hh]
    exact h.endFetch hstart hu hout hroom ht .halted

end

section
variable {s : State} (h : s.LinkSound) (hstart : s.link.startOwed = none) (hroom : s.link.occupancy < Config.resultPlaces)
include h hstart hroom

/-- A FETCH begins, or is turned away BUSY; on a link that is DOWN it begins nothing (R166, R173, R181). -/
theorem State.LinkSound.engageFetch (tag : Byte) (p : List Byte) : (s.owe.engageFetch tag p).LinkSound := by
  have busy := h.answer_owe hstart hroom fetchKind tag (r := .bare .busy) (by decide)
  have hengine := s.owe_engine
  unfold State.engageFetch
  rw [hengine]
  cases he : s.link.engine with
  | executing r => exact busy
  | delivering f => exact busy
  | idle =>
    have hrecord := h.no_record (by rw [he]; nofun)
    have howed : s.link.owed = 0 := by rw [h.owed, he]; rfl
    cases hu : s.link.up with
    | false => rw [State.owe_of_down hu]; simpa [hu] using h
    | true =>
      have hqueued : s.link.queued.length < Config.resultPlaces := Nat.lt_of_le_of_lt (Nat.le_add_right _ _) hroom
      rw [State.owe_of_up hu]
      refine (congrArg State.LinkSound (if_pos hu)).mpr ?_
      refine h.fetchLooks (out := s.link.outFrame) hstart hu (fun _ ho => ⟨ho, LinkInterface.kind_ne_record hrecord ho⟩) hqueued ?_
      rw [howed]; exact .refl _

/-- A HALT is answered STATE, or halts the running fetch, which ends at once unless a RECORD frame is in progress (R171). -/
theorem State.LinkSound.engageHalt (tag : Byte) : (s.owe.engageHalt tag).LinkSound := by
  have refused := h.answer_owe hstart hroom haltKind tag (r := .bare .state) (by decide)
  have hengine := s.owe_engine
  cases he : s.link.engine with
  | idle => rw [State.engageHalt_idle (hengine.trans he)]; exact refused
  | executing r => unfold State.engageHalt; rw [hengine, he]; exact refused
  | delivering f =>
    have hu := h.up_of_delivering he
    have howed : s.link.owed = 1 + f.halts.length := by rw [h.owed, he]; rfl
    have hlength : (f.halts ++ [tag]).length = f.halts.length + 1 := List.length_append
    have hocc : s.link.queued.length + (1 + (f.halts ++ [tag]).length) ≤ Config.resultPlaces := by
      have := hroom
      unfold LinkInterface.occupancy at this
      omega
    cases hs : s.link.sendsRecord with
    | true =>
      have hrecord : s.owe.link.sendsRecord = true := by rw [State.owe_of_up hu]; exact hs
      rw [State.engageHalt_sending (hengine.trans he) hrecord]
      have hsound := h.served (out := s.link.outFrame) (e := .delivering { f with halts := f.halts ++ [tag] }) (rs := []) hstart
        (fun _ hf => hf) hocc nofun (fun _ _ _ => s.link.sendsRecord_iff.mp hs) (fun _ _ _ => ⟨_, rfl⟩)
        (fun hd => nomatch hu.symm.trans hd) nofun
      have howes : s.link.owed + 1 = 1 + (f.halts ++ [tag]).length := by omega
      rw [State.owe_of_up hu]
      unfold State.setEngine
      rw [howes]
      unfold State.served at hsound
      rw [List.append_nil] at hsound
      exact hsound
    | false =>
      have hrecord : s.owe.link.sendsRecord = false := by rw [State.owe_of_up hu]; exact hs
      rw [State.engageHalt_ends (hengine.trans he) hrecord]
      refine h.endFetch (out := s.link.outFrame) hstart hu (fun _ ho => ⟨ho, LinkInterface.kind_ne_record hs ho⟩) hocc ?_ .halted
      have howes : 1 + (f.halts ++ [tag]).length = s.link.owed + 1 := by omega
      rw [State.owe_of_up hu, howes]
      exact .refl _

end

/-! ## Complete frames, and the bytes of the lane (R178 to R181) -/

section
variable {s : State} (h : s.LinkSound)
include h

/-- The framer of a part whose START has gone out takes another state but IGNORING. -/
theorem State.LinkSound.setFramer (hf : s.link.framer ≠ .ignoring) {f : Framer} (hdown : s.link.up = false → f.cut = f) :
    (s.setFramer f).LinkSound where
  occupancy := h.occupancy
  owed := h.owed
  executing := h.executing
  halting := h.halting
  down hu := by
    obtain ⟨hqueued, hcut, hnone, -⟩ := h.down hu
    exact ⟨hqueued, hcut, hnone, hdown hu⟩
  input := h.input
  backed := h.backed
  starting hs := absurd (h.starting hs).1 hf
  restarting hd := absurd (h.restarting hd).1 hf
  asked r hr hq := absurd (h.asked r hr hq) hf

theorem State.LinkSound.linkError : s.linkError.LinkSound :=
  ⟨h.occupancy, h.owed, h.executing, h.halting, h.down, h.input, h.backed, h.starting, h.restarting, h.asked⟩

/-- A complete frame, when what it does once arrived whole keeps the invariant (R178 to R180). -/
theorem State.LinkSound.arrive (payload : List Byte) {act : State → State}
    (hact : ∀ u : State, u.LinkSound → u.link.startOwed = none → u.link.occupancy < Config.resultPlaces → (act u.owe).LinkSound) :
    (s.arrive payload act).LinkSound := by
  by_cases hf : s.link.framer = .ignoring
  · rw [State.arrive_ignoring hf]; exact h
  · have hsound : (s.setFramer .hunting).LinkSound := h.setFramer hf fun _ => rfl
    rw [State.arrive_taking hf]
    unfold State.judgeFrame
    split
    · exact hsound.linkError
    · rename_i hroom
      exact hact _ hsound (h.started hf) (Nat.lt_of_not_le fun hfull => hroom (.inr hfull))

/-- A complete frame by its kind, when what becomes of a request in the engine keeps the invariant (R179, R181). -/
theorem State.LinkSound.takeFrameWith {engage : State → State} {kind : Byte} (tag : Byte) {payload : List Byte}
    (hengage : ∀ u : State, u.LinkSound → u.link.startOwed = none → u.link.occupancy < Config.resultPlaces →
      requestLength kind = some payload.length → kind ≠ fetchKind → kind ≠ haltKind → (engage u.owe).LinkSound) :
    (s.takeFrameWith engage kind tag payload).LinkSound := by
  rw [State.takeFrameWith_eq]
  refine h.arrive payload fun u hu hstart hroom => ?_
  cases hlen : requestLength kind with
  | none => rw [State.frameAct_unknown hlen]; exact hu.answer_owe hstart hroom kind tag (by decide)
  | some n =>
    by_cases hn : payload.length = n
    · rw [← hn] at hlen
      by_cases hfetch : kind = fetchKind
      · rw [State.frameAct_fetch hlen hfetch]; exact hu.engageFetch hstart hroom tag payload
      · by_cases hhalt : kind = haltKind
        · rw [State.frameAct_halt hlen hhalt]; exact hu.engageHalt hstart hroom tag
        · rw [State.frameAct_request hlen hfetch hhalt]; exact hengage u hu hstart hroom hlen hfetch hhalt
    · rw [State.frameAct_wrong_length hlen hn]; exact hu.answer_owe hstart hroom kind tag (by decide)

theorem State.LinkSound.takeFrame (kind tag : Byte) (payload : List Byte) : (s.takeFrame kind tag payload).LinkSound :=
  h.takeFrameWith tag fun _ hu hstart hroom _ _ _ => hu.engage hstart hroom kind tag payload

theorem State.LinkSound.takeLaneFrame (kind tag : Byte) (payload : List Byte) : (s.takeLaneFrame kind tag payload).LinkSound :=
  h.takeFrameWith tag fun _ hu hstart hroom hlen hfetch hhalt => hu.handToOwner hstart hroom hlen hfetch hhalt tag

theorem State.LinkSound.takeByte (hu : s.link.up = true) (b : Byte) : (s.takeByte b).LinkSound := by
  have hup : ∀ f : Framer, s.link.up = false → f.cut = f := fun _ hd => nomatch hu.symm.trans hd
  unfold State.takeByte
  cases hf : s.link.framer with
  | ignoring => exact h
  | hunting =>
    simp only
    split
    · exact h.setFramer (by rw [hf]; nofun) (hup _)
    · exact h
  | receiving collected =>
    have hframer : s.link.framer ≠ .ignoring := by rw [hf]; nofun
    have hhunting : (s.setFramer .hunting).LinkSound := h.setFramer hframer (hup _)
    simp only [State.collect]
    split_ifs
    · exact hhunting.linkError
    · exact hhunting.takeLaneFrame _ _ _
    · exact hhunting.linkError
    · exact h.setFramer hframer (hup _)

end

/-- A released part's lane delivers bytes while its signal-detect input shows the link UP (R184). -/
theorem State.LinkSound.foldBytes {s : State} (h : s.LinkSound) (hr : s.resetHold.held = false) (hsd : s.pins.linkSd = true)
    (bytes : List Byte) : (bytes.foldl (fun t b => t.takeByte b) s).LinkSound := by
  induction bytes generalizing s with
  | nil => exact h
  | cons b bytes ih =>
    have hinputs := (SameInputs.linkBlind s).takeByte b (.refl s)
    exact ih (h.takeByte ((h.input hr).trans hsd) b) (by rw [hinputs.resetHold]; exact hr) (by rw [hinputs.pins]; exact hsd)

theorem State.LinkSound.takeBytes {s : State} (h : s.LinkSound) (hr : s.resetHold.held = false) (bytes : List Byte) :
    (s.takeBytes bytes).LinkSound := by
  unfold State.takeBytes
  split
  · rename_i hu
    exact h.foldBytes hr ((h.input hr).symm.trans hu) bytes
  · exact h

/-- A request in EXECUTING is carried out (R181, R182, R185). -/
theorem State.LinkSound.finish {s : State} (h : s.LinkSound) {r : Request} (he : s.link.engine = .executing r) (p : List Byte) :
    (s.finish r (ownOf r.kind p)).LinkSound := by
  have hstart := h.started_of_engine (by rw [he]; nofun)
  have hrecord := h.no_record (by rw [he]; nofun)
  have howes : s.link.owed = if r.lost then 0 else 1 := by rw [h.owed, he]; rfl
  cases hl : r.lost with
  | true =>
    rw [State.finish_of_lost _ hl]
    exact h.carryOut_lost hstart hrecord (by rw [howes, hl]; rfl) r.kind r.tag p
  | false =>
    have howed : s.link.owed = 1 := by rw [howes, hl]; rfl
    have hu : s.link.up = true := by
      by_contra hd
      exact absurd (h.owed_of_down (Bool.not_eq_true _ ▸ hd)) (by rw [howed]; decide)
    have hroom : s.link.queued.length < Config.resultPlaces := by
      have hocc := h.occupancy
      unfold LinkInterface.occupancy at hocc
      omega
    rw [State.finish_of_kept _ hl]
    exact h.carryOut_of_up hstart hrecord hu hroom howed r.kind r.tag p

/-! ## The outbound lane (R180, R183, R191, R193) -/

theorem LinkInterface.sendsRecord_none {l : LinkInterface} (h : l.outFrame = none) : l.sendsRecord = false :=
  LinkInterface.sendsRecord_eq_false fun _ ho => nomatch h.symm.trans ho

section
variable {s : State} (h : s.LinkSound)
include h

/-- A fetch that has a HALT and no RECORD frame in progress has ended (R171). -/
theorem State.LinkSound.no_halts (hs : s.link.sendsRecord = false) {f : Fetch} (he : s.link.engine = .delivering f) : f.halts = [] := by
  by_contra hh
  exact nomatch hs.symm.trans (h.halting f he hh)

/-- A frame begins on an idle lane, backed by what it sends (R183). -/
theorem State.LinkSound.beginFrame (hu : s.link.up = true) (hnone : s.link.outFrame = none) {o : OutFrame}
    (hstart : o.kind = .start → s.link.startOwed ≠ none) (hresult : o.kind = .result → s.link.queued ≠ [])
    (hrecord : o.kind = .record → s.queue.entries ≠ [] ∧ ∃ g, s.link.engine = .delivering g) :
    State.LinkSound { s with link := { s.link with outFrame := some o } } where
  occupancy := h.occupancy
  owed := h.owed
  executing := h.executing
  halting _ he hh := absurd (h.no_halts (LinkInterface.sendsRecord_none hnone) he) hh
  down hd := nomatch hu.symm.trans hd
  input := h.input
  backed f hf := by
    obtain rfl := Option.some.inj hf
    cases hk : o.kind with
    | start => exact hstart hk
    | result => exact hresult hk
    | notice id n x => trivial
    | record => exact hrecord hk
  starting := h.starting
  restarting := h.restarting
  asked := h.asked

theorem State.LinkSound.setNotices (n : NoticeTable) : State.LinkSound { s with notices := n } :=
  h.congr ⟨rfl, rfl, rfl, fun _ => id⟩

theorem State.LinkSound.chooseRecord (hu : s.link.up = true) (hnone : s.link.outFrame = none) : s.chooseRecord.LinkSound := by
  unfold State.chooseRecord
  split
  · rename_i f e rest he hq
    split
    · exact h.beginFrame hu hnone nofun nofun fun _ => ⟨by rw [hq]; exact List.cons_ne_nil _ _, f, he⟩
    · exact h
  all_goals exact h

/-- The arbiter's choice is a frame backed by what it sends, or none (R183). -/
theorem State.LinkSound.choose (hu : s.link.up = true) (hnone : s.link.outFrame = none) : s.choose.LinkSound := by
  unfold State.choose
  split
  · rename_i cause hcause
    exact h.beginFrame hu hnone (fun _ => by rw [hcause]; exact Option.some_ne_none _) nofun nofun
  · split
    · rename_i r rest hq
      exact h.beginFrame hu hnone nofun (fun _ => by rw [hq]; exact List.cons_ne_nil _ _) nofun
    · split
      · rename_i id _
        have hbegin := fun bytes => h.beginFrame hu hnone
          (o := { kind := .notice id (s.notices.get id).occurrences (s.notices.get id).summary, bytes := bytes }) nofun nofun nofun
        exact (hbegin _).setNotices _
      · exact h.chooseRecord hu hnone

/-- The lane idle at the end of a frame that is no RECORD (R180, R184, R193). -/
theorem State.LinkSound.freeLane (hs : s.link.sendsRecord = false) : s.freeLane.LinkSound where
  occupancy := h.occupancy
  owed := h.owed
  executing := h.executing
  halting _ he hh := absurd (h.no_halts hs he) hh
  down hu := by
    obtain ⟨hqueued, hcut, -, hframer⟩ := h.down hu
    exact ⟨hqueued, hcut, rfl, hframer⟩
  input := h.input
  backed := nofun
  starting := h.starting
  restarting := h.restarting
  asked := h.asked

/-- The oldest result leaves the FIFO of an idle lane; a RESTART's makes the restart due (R180, R191). -/
theorem State.LinkSound.popResult (hnone : s.link.outFrame = none) {r : Result} {rest : List Result} (hq : s.link.queued = r :: rest) :
    State.LinkSound { s with link := { s.link with queued := rest, restartDue := s.link.restartDue || r.isRestart } } where
  occupancy := by
    have hocc : s.link.queued.length + s.link.owed ≤ Config.resultPlaces := h.occupancy
    rw [hq, List.length_cons] at hocc
    show rest.length + s.link.owed ≤ _
    omega
  owed := h.owed
  executing := h.executing
  halting := h.halting
  down hu := by
    obtain ⟨hqueued, -, -, -⟩ := h.down hu
    exact nomatch hq.symm.trans hqueued
  input := h.input
  backed f hf := nomatch hnone.symm.trans hf
  starting hs := by
    obtain ⟨-, -, hqueued⟩ := h.starting hs
    exact nomatch hq.symm.trans hqueued
  restarting hdue := by
    have hstart : s.link.startOwed = none := by
      by_contra hs
      obtain ⟨-, -, hqueued⟩ := h.starting hs
      exact nomatch hq.symm.trans hqueued
    rcases Bool.or_eq_true_iff.mp hdue with hdue | hrestart
    · exact h.restarting hdue
    · exact ⟨h.asked r (by rw [hq]; exact List.mem_cons_self) hrestart, hstart⟩
  asked q hin := h.asked q (by rw [hq]; exact List.mem_cons_of_mem r hin)

theorem State.LinkSound.completeResult : s.completeResult.LinkSound := by
  unfold State.completeResult
  split
  · rename_i f hf
    split
    · rename_i hk
      have hother : s.link.sendsRecord = false := LinkInterface.sendsRecord_eq_false fun o ho => by
        rw [← Option.some.inj (hf.symm.trans ho), hk]; nofun
      cases hq : s.link.queued with
      | nil => exact absurd hq (h.backed_result hf hk)
      | cons r rest =>
        have hpop := (h.freeLane hother).popResult rfl hq
        simpa [LinkInterface.popResult, hq, State.freeLane] using hpop
    · exact h
  · exact h

/-- The last byte of the START goes out: nothing is due and nothing queued yet, and the framer may hunt (R178, R193). -/
theorem State.LinkSound.completeStart : s.completeStart.LinkSound := by
  unfold State.completeStart
  split
  · rename_i f hf
    split
    · rename_i hk
      have howed := h.backed_start hf hk
      obtain ⟨-, hidle, hqueued⟩ := h.starting howed
      exact
        { occupancy := h.occupancy
          owed := h.owed
          executing := h.executing
          halting := fun _ he => nomatch hidle.symm.trans he
          down := fun hd => nomatch (h.up_of_outFrame hf).symm.trans hd
          input := h.input
          backed := nofun
          starting := fun hs => absurd rfl hs
          restarting := fun hdue => absurd (h.restarting hdue).2 howed
          asked := fun r hr => by rw [show s.link.started.queued = [] from hqueued] at hr; exact nomatch hr }
    · exact h
  · exact h

theorem State.LinkSound.completeNotice : s.completeNotice.LinkSound := by
  unfold State.completeNotice
  split
  · rename_i f hf
    split
    · rename_i hk
      exact h.freeLane (LinkInterface.sendsRecord_eq_false fun o ho => by rw [← Option.some.inj (hf.symm.trans ho), hk]; nofun)
    all_goals exact h
  · exact h

/-- The last byte of a RECORD frame goes out, and its fetch looks for the next record (R167, R171). -/
theorem State.LinkSound.completeRecord : s.completeRecord.LinkSound := by
  cases hs : s.link.sendsRecord with
  | false => rw [State.completeRecord_none hs]; exact h
  | true =>
    obtain ⟨-, f, he⟩ := h.backed_record hs
    have howed : s.link.owed = 1 + f.halts.length := by rw [h.owed, he]; rfl
    rw [State.completeRecord_of hs he]
    refine h.fetchLooks (out := none) (h.started_of_engine (by rw [he]; nofun)) (h.up_of_delivering he) nofun ?_ ?_
    · show s.link.queued.length + (1 + f.halts.length) ≤ _
      rw [← howed]; exact h.occupancy
    · refine ⟨?_, rfl, rfl, nofun⟩
      show ({ s.link with outFrame := none } : LinkInterface) = { s.link with outFrame := none, owed := 1 + f.halts.length }
      rw [← howed]

end

/-! ## The link goes DOWN and comes UP (R184, R185) -/

theorem Engine.cut_cut (e : Engine) : e.cut.cut = e.cut := by cases e <;> rfl

theorem Framer.cut_cut (f : Framer) : f.cut.cut = f.cut := by cases f <;> rfl

theorem Engine.owes_cut (e : Engine) : e.cut.owes = 0 := by cases e <;> rfl

section
variable {s : State} (h : s.LinkSound)
include h

/-- The link that goes DOWN; a RESTART whose result is lost is due, its framer closed since the RESTART was carried out (R185, R191). -/
theorem State.LinkSound.drop (n : NoticeTable) :
    State.LinkSound { s with pins := { s.pins with linkSd := false }, notices := n, link := s.link.drop } where
  occupancy := Nat.zero_le _
  owed := s.link.engine.owes_cut.symm
  executing r hr := by
    have hcut : s.link.engine.cut = .executing r := hr
    cases he : s.link.engine with
    | idle => rw [he] at hcut; exact nomatch hcut
    | delivering f => rw [he] at hcut; exact nomatch hcut
    | executing q => rw [he] at hcut; obtain rfl := Engine.executing.inj hcut; exact h.executing q he
  halting f hf := by
    have hcut : s.link.engine.cut = .delivering f := hf
    cases he : s.link.engine <;> rw [he] at hcut <;> exact nomatch hcut
  down _ := ⟨rfl, s.link.engine.cut_cut, rfl, s.link.framer.cut_cut⟩
  input _ := rfl
  backed := nofun
  starting hs := by
    obtain ⟨hframer, hidle, -⟩ := h.starting hs
    refine ⟨?_, ?_, rfl⟩
    · show s.link.framer.cut = .ignoring
      rw [hframer]; rfl
    · show s.link.engine.cut = .idle
      rw [hidle]; rfl
  restarting hdue := by
    have hclosed : s.link.framer = .ignoring ∧ s.link.startOwed = none := by
      rcases Bool.or_eq_true_iff.mp hdue with hdue | hany
      · exact h.restarting hdue
      · obtain ⟨r, hr, hrestart⟩ := List.any_eq_true.mp hany
        refine ⟨h.asked r hr hrestart, ?_⟩
        by_contra hs
        rw [(h.starting hs).2.2] at hr
        exact nomatch hr
    refine ⟨?_, hclosed.2⟩
    show s.link.framer.cut = .ignoring
    rw [hclosed.1]; rfl
  asked := nofun

theorem State.LinkSound.linkUp : ((s.setLinkSd true).setUp true).LinkSound :=
  ⟨h.occupancy, h.owed, h.executing, h.halting, nofun, fun _ => rfl, h.backed, h.starting, h.restarting, h.asked⟩

/-- A part held in reset takes no event of the link's input (R192). -/
theorem State.LinkSound.setLinkSd_held (hr : s.resetHold.held = true) (present : Bool) : (s.setLinkSd present).LinkSound :=
  ⟨h.occupancy, h.owed, h.executing, h.halting, h.down, fun hf => (nomatch hr.symm.trans hf), h.backed, h.starting, h.restarting, h.asked⟩

theorem State.LinkSound.linkDown : (s.setLinkSd false).dropLink.LinkSound := by
  unfold State.dropLink
  split
  · exact h.drop _
  · rename_i hu
    exact ⟨h.occupancy, h.owed, h.executing, h.halting, h.down, fun _ => Bool.not_eq_true _ ▸ hu, h.backed, h.starting, h.restarting, h.asked⟩

end

/-! ## The events of the other blocks -/

theorem SameLink.grant (s : State) : SameLink s s.grant := by
  unfold State.grant; repeat' split
  all_goals exact ⟨rfl, rfl, rfl, fun _ => id⟩

theorem SameLink.handOver (s : State) : SameLink s s.handOver := by
  have taken : ∀ m, SameLink s (s.freeClassifier.extractAndTake m) := by
    intro m
    unfold State.extractAndTake
    split
    · exact ⟨rfl, rfl, rfl, fun _ => id⟩
    · exact SameLink.trans (t := s.freeClassifier) ⟨rfl, rfl, rfl, fun _ => id⟩ (Acts.takeArrival _ _ _).sameLink
  unfold State.handOver
  split
  · exact .refl s
  · split
    · exact ⟨rfl, rfl, rfl, fun _ => id⟩
    · exact taken _
    · exact taken _

theorem SameLink.expireStats (s : State) : SameLink s s.expireStats := by
  have offered : ∀ (u : State) (l : List FeedId) (v : State), SameLink s v →
      SameLink s (l.foldl (fun t i => t.offerNow (.stats (u.statsOf i))) v) := by
    intro u l
    induction l with
    | nil => exact fun v h => h
    | cons i l ih => exact fun v h => ih _ (h.trans (TimeActs.offerNow v _).sameLink)
  by_cases hdue : ∀ d, s.queue.statsDeadline = some d → reached d s.now = false
  · rw [State.expireStats_not_due hdue]; exact .refl s
  · simp only [not_forall, Bool.not_eq_false] at hdue
    obtain ⟨d, hd, hr⟩ := hdue
    rw [State.expireStats_due hd hr]
    exact offered _ _ _ ⟨rfl, rfl, rfl, fun _ => id⟩

theorem SameLink.elapse (n : Nat) (s : State) : SameLink s (s.elapse n) := by
  unfold State.elapse
  split
  · exact .refl s
  · exact ⟨rfl, rfl, rfl, fun _ => id⟩

/-! ## O59 -/

/-- After a restart the link interface is at its reset values, its state read from the input (R191, R194). -/
theorem State.restartBlocks_linkSound (s : State) : s.restartBlocks.LinkSound :=
  ⟨Nat.zero_le _, rfl, nofun, nofun, fun _ => ⟨rfl, rfl, rfl, rfl⟩, fun _ => rfl, nofun, fun _ => ⟨rfl, rfl, rfl⟩, nofun, nofun⟩

/-- Every command keeps the link interface sound. -/
theorem State.LinkSound.exec {s t : State} (h : s.LinkSound) (c : Instr) (e : exec c s = .next t) : t.LinkSound := by
  cases hc : c.toFrame with
  | some f =>
    obtain ⟨kind, tag, p⟩ := f
    rw [exec_of_toFrame hc] at e
    exact whenReleased_keeps (h.takeFrame kind tag p) h e
  | none =>
    cases c
    case lineSignalChange i v =>
      have hsd : SameLink s (s.setSd i v) := ⟨rfl, rfl, rfl, fun _ => id⟩
      injection e with e; rw [← e]; split
      · exact h.congr hsd
      · exact h.congr (hsd.trans (LineActs.portSignal i v _).sameLink)
    case linkDown =>
      injection e with e; rw [← e]; split
      · rename_i hr; exact h.setLinkSd_held hr false
      · exact h.linkDown
    case linkUp =>
      injection e with e; rw [← e]; split
      · rename_i hr; exact h.setLinkSd_held hr true
      · exact h.linkUp
    case powerOn => injection e with e; rw [← e]; exact State.fresh_linkSound _ _ _ _
    case lineReset => injection e with e; rw [← e]; exact State.fresh_linkSound _ _ _ _
    case supplyDip => injection e with e; rw [← e]; exact State.fresh_linkSound _ _ _ _
    case resetRelease =>
      injection e with e; rw [← e]; split
      · exact State.fresh_linkSound _ _ _ _
      · exact h
    case inboundFrameDiscard bytes =>
      rw [whenReleased_next e]; split
      · exact h
      · rename_i hr; exact h.takeBytes (Bool.not_eq_true _ ▸ hr) bytes
    all_goals first | exact absurd hc (Option.some_ne_none _) | refine whenReleased_keeps ?_ h e
    case startOfFrame i => exact h.congr (LineActs.portStart i s).sameLink
    case endOfFrame i good bytes => exact h.congr (LineActs.portEnd i good bytes s).sameLink
    case quietTimerExpiry i => exact h.congr (LineActs.portQuiet i s).sameLink
    case ingressGrant => exact h.congr (.grant s)
    case handOver => exact h.congr (.handOver s)
    case pairingTimerExpiry i => exact h.congr (Acts.expirePairing i s).sameLink
    case gapTimerExpiry i => exact h.congr (Acts.expireGaps i s).sameLink
    case candidateExpiry i => exact h.congr (Acts.expireCandidate i s).sameLink
    case silenceDeadlineExpiry i leg => exact h.congr (Acts.expireSilence i leg s).sameLink
    case statisticsTimerExpiry => exact h.congr (.expireStats s)
    case referencePulse r edge => exact h.congr (TimeActs.takePulse r edge s).sameLink
    case referenceTimeout r => exact h.congr (TimeActs.timeoutMonitor r s).sameLink
    case holdoverTimerExpiry => exact h.congr (TimeActs.expireHoldover s).sameLink
    case slewComplete => exact h.congr (TimeActs.completeSlew s).sameLink
    case outboundChoice =>
      split
      · rename_i hmay
        unfold LinkInterface.mayChoose at hmay
        simp only [Bool.and_eq_true, Option.isNone_iff_eq_none] at hmay
        obtain ⟨⟨hu, hnone⟩, -⟩ := hmay
        exact h.choose hu hnone
      · exact h
    case resultFrameComplete => exact h.completeResult
    case recordFrameComplete => exact h.completeRecord
    case startFrameComplete => exact h.completeStart
    case noticeFrameComplete => exact h.completeNotice
    case restartExecute =>
      split
      · exact State.restartBlocks_linkSound s
      · exact h

theorem State.LinkSound.idleStep {s : State} (h : s.LinkSound) : s.idleStep.LinkSound := by
  unfold State.idleStep
  split
  · exact h
  · split
    · rename_i r he; exact h.finish he r.payload
    · exact h.congr (.elapse 1 s)
    · exact h.congr (.elapse 1 s)

/-- Settles O59: an empty queue's step is a request carried out or a tick, and every other step is a command, each of which keeps the invariant. -/
theorem stepKeepsLinkSound : Obligations.StepKeepsLinkSound := by
  intro s t h e
  unfold step at e
  split at e
  · injection e with e; rw [← e]; exact h.idleStep
  · rename_i c rest _
    exact State.LinkSound.exec (s := { s with pending := rest }) (h.congr ⟨rfl, rfl, rfl, fun _ => id⟩) c e

end Sys2Proof.Machine
end

section
/-! SUPPORT. Inbound frames as the statements spell them out (R177 to R182, R185): frames turned away, damaged frames, the bytes of a whole frame, and the
request in EXECUTING: O49, O51, O52 and O53. -/

namespace Sys2Proof.Machine

/-! ## Complete frames (R178 to R181) -/

/-- A complete frame that finds the result FIFO full is a link error (R179). -/
theorem State.arrive_full {s : State} (hf : s.link.framer ≠ .ignoring) (ho : Config.resultPlaces ≤ s.link.occupancy) (payload : List Byte)
    (act : State → State) : s.arrive payload act = (s.setFramer .hunting).linkError := by
  rw [State.arrive_taking hf]
  exact if_pos (.inr ho)

/-! A request while another is under way (R181). -/

section
variable {s : State} (h : s.link.engine ≠ .idle)
include h

theorem State.engage_busy (kind tag : Byte) (own : State → State × Reply) : s.engage kind tag own = s.answer kind tag (.bare .busy) := by
  unfold State.engage
  cases he : s.link.engine with
  | idle => exact absurd he h
  | executing r => rfl
  | delivering f => rfl

theorem State.handToOwner_busy (kind tag : Byte) (p : List Byte) : s.handToOwner kind tag p = s.answer kind tag (.bare .busy) := by
  unfold State.handToOwner
  cases he : s.link.engine with
  | idle => exact absurd he h
  | executing r => rfl
  | delivering f => rfl

theorem State.engageFetch_busy (tag : Byte) (p : List Byte) : s.engageFetch tag p = s.answer fetchKind tag (.bare .busy) := by
  unfold State.engageFetch
  cases he : s.link.engine with
  | idle => exact absurd he h
  | executing r => rfl
  | delivering f => rfl

/-- Every request but a HALT is BUSY (R181). -/
theorem State.frameAct_busy {kind : Byte} {p : List Byte} (hlen : requestLength kind = some p.length) (hk : kind ≠ haltKind) (tag : Byte)
    (own : State → State × Reply) : State.frameAct (State.engage kind tag own) kind tag p s = s.answer kind tag (.bare .busy) := by
  by_cases hfetch : kind = fetchKind
  · rw [State.frameAct_fetch hlen hfetch, State.engageFetch_busy h, hfetch]
  · rw [State.frameAct_request hlen hfetch hk, State.engage_busy h]

end

theorem State.engageHalt_executing {s : State} {r : Request} (h : s.link.engine = .executing r) (tag : Byte) :
    s.engageHalt tag = s.answer haltKind tag (.bare .state) := by
  unfold State.engageHalt; rw [h]

/-- A frame that finds room acts by its kind on the state with the frame arrived (R179, R180). -/
theorem State.takeFrame_of {s : State} (hf : s.link.framer ≠ .ignoring) (hu : s.link.up = true) (ho : s.link.occupancy < Config.resultPlaces)
    (kind tag : Byte) {p : List Byte} (hp : p.length ≤ Config.maxPayload) :
    s.takeFrame kind tag p = State.frameAct (State.engage kind tag (ownOf kind p)) kind tag p s.arrived :=
  (State.takeFrameWith_eq _ _ _ _ _).trans (State.arrive_of _ hf hu ho hp)

/-- The command of a complete frame that finds room (R179, R180, R198). -/
theorem exec_ofFrame_arrived {s : State} (hr : s.resetHold.held = false) (hu : s.link.up = true) (hf : s.link.framer ≠ .ignoring)
    (ho : s.link.occupancy < 4) (kind tag : Byte) {p : List Byte} (hp : p.length ≤ 1024) :
    exec (Instr.ofFrame kind tag p) s = .next (State.frameAct (State.engage kind tag (ownOf kind p)) kind tag p s.arrived) := by
  rw [exec_ofFrame hr, State.takeFrame_of hf hu ho kind tag hp]

/-- The command of a kind that is not a request kind (R179). -/
theorem exec_ofFrame_unknown {s : State} (hr : s.resetHold.held = false) (hu : s.link.up = true) (hf : s.link.framer ≠ .ignoring)
    (ho : s.link.occupancy < 4) {kind : Byte} (hk : requestLength kind = none) (tag : Byte) {p : List Byte} (hp : p.length ≤ 1024) :
    exec (Instr.ofFrame kind tag p) s = .next (s.replied kind tag (.bare .unknown)) := by
  rw [exec_ofFrame_arrived hr hu hf ho kind tag hp, State.frameAct_unknown hk, State.arrived_answer hu]

/-- Settles O49: IGNORING and a full FIFO first, then the kind, the length and the request engine. -/
theorem requestsAreTurnedAway : Obligations.RequestsAreTurnedAway := by
  refine ⟨fun s kind tag p hr hu hp => ⟨fun hf => ?_, fun hf => ⟨fun hfull => ?_, fun ho => ⟨fun hk => ?_, fun n hn hlen => ?_,
    fun f hlen he hk => ?_, fun r hlen he => ?_⟩⟩⟩, fun s kind tag p hr hu hf ho hp hk => ?_⟩
  · rw [exec_ofFrame hr, State.takeFrame, State.takeFrameWith_eq, State.arrive_ignoring hf]
  · rw [exec_ofFrame hr, State.takeFrame, State.takeFrameWith_eq, State.arrive_full hf hfull]; rfl
  · exact exec_ofFrame_unknown hr hu hf ho hk tag hp
  · rw [exec_ofFrame_arrived hr hu hf ho kind tag hp, State.frameAct_wrong_length hn hlen, State.arrived_answer hu]
  · have hbusy : s.arrived.link.engine ≠ .idle := fun hidle => nomatch he.symm.trans hidle
    rw [exec_ofFrame_arrived hr hu hf ho kind tag hp, State.frameAct_busy hbusy hlen hk, State.arrived_answer hu]
  · rw [exec_ofFrame_arrived hr hu hf ho kind tag hp]
    by_cases hk : kind = 0x2A
    · rw [State.frameAct_halt hlen hk, State.engageHalt_executing (s := s.arrived) he, State.arrived_answer hu, if_pos hk, hk]; rfl
    · have hbusy : s.arrived.link.engine ≠ .idle := fun hidle => nomatch he.symm.trans hidle
      rw [State.frameAct_busy hbusy hlen hk, State.arrived_answer hu, if_neg hk]
  · rw [← Laws.ofFrame_unknown tag p hk]
    exact exec_ofFrame_unknown hr hu hf ho hk tag hp

/-! ## The bytes of the lane (R177, R178) -/

/-- The bytes collected end the frame: its length is too great, or it is whole (R178). -/
def endsFrame (collected : List Byte) : Bool := tooLong collected || isWhole collected

theorem State.collect_goes_on {collected : List Byte} (h : endsFrame collected = false) (s : State) :
    s.collect collected = s.setFramer (.receiving collected) := by
  obtain ⟨hlong, hwhole⟩ := Bool.or_eq_false_iff.mp h
  unfold State.collect
  rw [hlong, hwhole]
  rfl

/-- Whether the framer was collecting before makes no difference to how a frame ends. -/
theorem State.collect_setFramer (f : Framer) (collected : List Byte) (s : State) : (s.setFramer f).collect collected = s.collect collected := by
  unfold State.collect; rfl

/-- The framer collects bytes that do not end the frame (R178). -/
theorem State.foldl_takeByte (s : State) (bytes : List Byte) (h : ∀ x, x <+: bytes → endsFrame x = false) :
    bytes.foldl (fun t b => t.takeByte b) (s.setFramer (.receiving [])) = s.setFramer (.receiving bytes) := by
  induction bytes using List.reverseRecOn with
  | nil => rfl
  | append_singleton bytes b ih =>
    have hcollect : (s.setFramer (.receiving bytes)).takeByte b = (s.setFramer (.receiving bytes)).collect (bytes ++ [b]) := rfl
    rw [List.foldl_append, ih fun x hx => h x (hx.trans ⟨[b], rfl⟩), List.foldl_cons, List.foldl_nil, hcollect,
      State.collect_setFramer, State.collect_goes_on (h _ ⟨[], List.append_nil _⟩)]

/-- A start byte, bytes that do not end the frame, and one more, taken by the hunting framer (R178). -/
theorem State.takeBytes_of {s : State} (hu : s.link.up = true) (hf : s.link.framer = .hunting) {bytes : List Byte}
    (h : ∀ x, x <+: bytes → endsFrame x = false) (b : Byte) : s.takeBytes (startByte :: (bytes ++ [b])) = s.collect (bytes ++ [b]) := by
  have hstart : s.takeByte startByte = s.setFramer (.receiving []) := by unfold State.takeByte; rw [hf]; exact if_pos rfl
  have hlast : (s.setFramer (.receiving bytes)).takeByte b = (s.setFramer (.receiving bytes)).collect (bytes ++ [b]) := rfl
  unfold State.takeBytes
  rw [if_pos hu, List.foldl_cons, hstart, List.foldl_append, State.foldl_takeByte s bytes h, List.foldl_cons, List.foldl_nil, hlast,
    State.collect_setFramer]

theorem endsFrame_of_short {collected : List Byte} (h : collected.length < 4) : endsFrame collected = false := by
  unfold endsFrame tooLong isWhole
  rw [Bool.or_eq_false_iff]
  exact ⟨Bool.and_eq_false_imp.mpr fun hl => absurd (beq_iff_eq.mp hl) (by omega), by rw [decide_eq_false (by omega)]; rfl⟩

section
variable {kind tag lo hi : Byte} {rest : List Byte}

theorem collectedLength_cons : collectedLength (kind :: tag :: lo :: hi :: rest) = lo.toNat + 256 * hi.toNat := by
  simp [collectedLength, fieldAt, leNat]

/-- Behind a length that is not too great, the frame ends at its second CRC byte (R178). -/
theorem endsFrame_of_length (hlen : lo.toNat + 256 * hi.toNat ≤ Config.maxPayload) (hrest : rest.length < lo.toNat + 256 * hi.toNat + 2) :
    endsFrame (kind :: tag :: lo :: hi :: rest) = false := by
  unfold endsFrame tooLong isWhole
  rw [collectedLength_cons, Bool.or_eq_false_iff]
  refine ⟨?_, ?_⟩
  · rw [decide_eq_false (by omega), Bool.and_false]
  · refine Bool.and_eq_false_imp.mpr fun _ => beq_eq_false_iff_ne.mpr ?_
    simp only [List.length_cons]
    omega

/-- No part of a frame short of its second CRC byte ends it (R178). -/
theorem endsFrame_of_part (hlen : lo.toNat + 256 * hi.toNat ≤ Config.maxPayload) (hrest : rest.length < lo.toNat + 256 * hi.toNat + 2) :
    ∀ x, x <+: kind :: tag :: lo :: hi :: rest → endsFrame x = false := by
  intro x hx
  by_cases hshort : x.length < 4
  · exact endsFrame_of_short hshort
  · obtain ⟨behind, hbehind⟩ := hx
    match x, hshort, hbehind with
    | a :: b :: c :: d :: y, _, hbehind =>
      simp only [List.cons_append, List.cons.injEq] at hbehind
      obtain ⟨rfl, rfl, rfl, rfl, rfl⟩ := hbehind
      rw [List.length_append] at hrest
      exact endsFrame_of_length hlen (by omega)
    | [], h, _ => exact absurd (by decide) h
    | [_], h, _ => exact absurd (by simp) h
    | [_, _], h, _ => exact absurd (by simp) h
    | [_, _, _], h, _ => exact absurd (by simp) h

end

/-- Kind and tag, the two length bytes that spell the length, and the payload (R177). -/
theorem frameBody_eq {p : List Byte} (hp : p.length ≤ Config.maxPayload) (kind tag : Byte) :
    ∃ lo hi : Byte, frameBody kind tag p = kind :: tag :: lo :: hi :: p ∧ lo.toNat + 256 * hi.toNat = p.length := by
  refine ⟨_, _, rfl, ?_⟩
  have hmax : Config.maxPayload = 1024 := rfl
  simp only [BitVec.toNat_ofNat]
  omega

theorem State.setFramer_hunting {s : State} (hf : s.link.framer = .hunting) : s.setFramer .hunting = s := by rw [← hf]; rfl

/-- The bytes of a whole frame, collected (R177, R178). -/
theorem State.collect_whole {p : List Byte} (hp : p.length ≤ Config.maxPayload) (kind tag c d : Byte) (s : State) :
    s.collect (frameBody kind tag p ++ [c, d]) =
      if [c, d] = leBytes 2 (crc16 (frameBody kind tag p)).toNat then (s.setFramer .hunting).takeLaneFrame kind tag p
      else (s.setFramer .hunting).linkError := by
  obtain ⟨lo, hi, hbody, hvalue⟩ := frameBody_eq hp kind tag
  have hcollected : collectedLength (frameBody kind tag p ++ [c, d]) = p.length := by
    rw [hbody]; exact collectedLength_cons.trans hvalue
  have hcut : (frameBody kind tag p ++ [c, d]).length - 2 = (frameBody kind tag p).length := by simp
  have hlong : tooLong (frameBody kind tag p ++ [c, d]) = false := by
    unfold tooLong; rw [hcollected, decide_eq_false (by omega), Bool.and_false]
  have hwhole : isWhole (frameBody kind tag p ++ [c, d]) = true := by
    unfold isWhole; rw [hcollected, hbody]; simp
  have hcrc : crcMatches (frameBody kind tag p ++ [c, d]) = true ↔ [c, d] = leBytes 2 (crc16 (frameBody kind tag p)).toNat := by
    unfold crcMatches; rw [hcut, List.drop_left, List.take_left, beq_iff_eq]
  have hpayload : ((frameBody kind tag p ++ [c, d]).drop 4).take p.length = p := by
    rw [hbody]; exact List.take_left
  unfold State.collect
  rw [hlong, hwhole, if_neg (by decide), if_pos rfl, hcollected, hpayload, hbody, ← hbody]
  simp only [hcrc]
  rfl

section
variable {s : State} (hu : s.link.up = true) (hf : s.link.framer = .hunting)
include hu hf

/-- A frame on the lane is its complete frame when its CRC matches, and a link error when not (R177, R178). -/
theorem State.takeBytes_frame {p : List Byte} (hp : p.length ≤ Config.maxPayload) (kind tag c d : Byte) :
    s.takeBytes (startByte :: frameBody kind tag p ++ [c, d]) =
      if [c, d] = leBytes 2 (crc16 (frameBody kind tag p)).toNat then s.takeLaneFrame kind tag p else s.linkError := by
  obtain ⟨lo, hi, hbody, hvalue⟩ := frameBody_eq hp kind tag
  have hgoes : ∀ x, x <+: frameBody kind tag p ++ [c] → endsFrame x = false := by
    rw [hbody]
    refine endsFrame_of_part (by rw [hvalue]; exact hp) ?_
    show (p ++ [c]).length < _
    rw [hvalue, List.length_append]
    exact Nat.lt_succ_self _
  have hsplit : startByte :: frameBody kind tag p ++ [c, d] = startByte :: ((frameBody kind tag p ++ [c]) ++ [d]) := by simp
  rw [hsplit, State.takeBytes_of hu hf hgoes, List.append_assoc]
  exact (State.collect_whole hp kind tag c d s).trans (by rw [State.setFramer_hunting hf])

/-- A frame whose length is too great ends at its second length byte (R178). -/
theorem State.takeBytes_too_long {c d : Byte} (h : Config.maxPayload < c.toNat + 256 * d.toNat) (kind tag : Byte) :
    s.takeBytes [startByte, kind, tag, c, d] = s.linkError := by
  have hgoes : ∀ x, x <+: [kind, tag, c] → endsFrame x = false := fun x hx =>
    endsFrame_of_short (Nat.lt_succ_of_le hx.length_le)
  have hlong : tooLong [kind, tag, c, d] = true := by
    unfold tooLong; rw [collectedLength_cons, decide_eq_true h]; rfl
  refine (State.takeBytes_of hu hf hgoes d).trans ?_
  show s.collect [kind, tag, c, d] = _
  unfold State.collect
  rw [if_pos hlong, State.setFramer_hunting hf]

/-- The bytes of a whole frame whose CRC matches (R177). -/
theorem State.takeBytes_wireFrame {p : List Byte} (hp : p.length ≤ Config.maxPayload) (kind tag : Byte) :
    s.takeBytes (wireFrame kind tag p) = s.takeLaneFrame kind tag p :=
  (State.takeBytes_frame hu hf hp kind tag _ _).trans (if_pos rfl)

end

theorem exec_inboundFrameDiscard_released {s : State} (h : s.resetHold.held = false) (bytes : List Byte) :
    exec (.inboundFrameDiscard bytes) s = .next (s.takeBytes bytes) := whenReleased_of _ h

/-- Settles O51: a frame with a wrong CRC at its last byte, and one too long at its second length byte. -/
theorem damagedFrameIsALinkError : Obligations.DamagedFrameIsALinkError := by
  intro s kind tag c d p hr hu hf
  refine ⟨fun hp hcrc => ?_, fun hlong => ?_⟩
  · rw [exec_inboundFrameDiscard_released hr, State.takeBytes_frame hu hf hp, if_neg hcrc]; rfl
  · rw [exec_inboundFrameDiscard_released hr, State.takeBytes_too_long hu hf hlong]; rfl

/-! ## A frame from the lane, and its command (R179, R181) -/

/-- What the request engine does with a request matters to no FETCH, no HALT, and no frame of a wrong length or kind (R179). -/
theorem State.frameAct_of_other {kind : Byte} {p : List Byte} (h : requestLength kind ≠ some p.length ∨ kind = fetchKind ∨ kind = haltKind)
    (engage engage' : State → State) (tag : Byte) : State.frameAct engage kind tag p = State.frameAct engage' kind tag p := by
  by_cases hlen : requestLength kind = some p.length
  · rcases h.resolve_left (not_not_intro hlen) with hk | hk
    · rw [State.frameAct_fetch hlen hk, State.frameAct_fetch hlen hk]
    · rw [State.frameAct_halt hlen hk, State.frameAct_halt hlen hk]
  · cases hn : requestLength kind with
    | none => rw [State.frameAct_unknown hn, State.frameAct_unknown hn]
    | some n =>
      have hne : p.length ≠ n := fun e => hlen (by rw [hn, e])
      rw [State.frameAct_wrong_length hn hne, State.frameAct_wrong_length hn hne]

section
variable {s : State} {kind : Byte} {p : List Byte}

/-- A request from the lane that finds room, its right length and the engine IDLE waits in EXECUTING (R181). -/
theorem State.takeLaneFrame_waits (hf : s.link.framer ≠ .ignoring) (hu : s.link.up = true) (ho : s.link.occupancy < Config.resultPlaces)
    (hlen : requestLength kind = some p.length) (hfetch : kind ≠ fetchKind) (hhalt : kind ≠ haltKind) (he : s.link.engine = .idle) (tag : Byte)
    (hp : p.length ≤ Config.maxPayload) : s.takeLaneFrame kind tag p =
      s.arrived.setEngine (.executing { kind := kind, tag := tag, payload := p, lost := false }) := by
  have hidle : s.arrived.link.engine = .idle := he
  have hup : s.arrived.link.up = true := hu
  unfold State.takeLaneFrame
  rw [State.takeFrameWith_eq, State.arrive_of _ hf hu ho hp, State.frameAct_request hlen hfetch hhalt]
  unfold State.handToOwner
  rw [hidle, hup]
  rfl

/-- Every other frame from the lane acts as its command does. -/
theorem State.takeLaneFrame_of_other (hf : s.link.framer ≠ .ignoring) (hu : s.link.up = true)
    (h : s.link.engine ≠ .idle ∨ 4 ≤ s.link.occupancy ∨ requestLength kind ≠ some p.length ∨ kind = fetchKind ∨ kind = haltKind) (tag : Byte)
    (hp : p.length ≤ Config.maxPayload) : s.takeLaneFrame kind tag p = s.takeFrame kind tag p := by
  unfold State.takeLaneFrame State.takeFrame
  rw [State.takeFrameWith_eq, State.takeFrameWith_eq]
  by_cases hfull : Config.resultPlaces ≤ s.link.occupancy
  · rw [State.arrive_full hf hfull, State.arrive_full hf hfull]
  · have ho := Nat.lt_of_not_le hfull
    rw [State.arrive_of _ hf hu ho hp, State.arrive_of _ hf hu ho hp]
    by_cases hother : requestLength kind ≠ some p.length ∨ kind = fetchKind ∨ kind = haltKind
    · rw [State.frameAct_of_other hother]
    · have hbusy : s.arrived.link.engine ≠ .idle := h.resolve_right fun hrest => hrest.elim hfull hother
      simp only [not_or, not_not] at hother
      obtain ⟨hlen, hfetch, hhalt⟩ := hother
      rw [State.frameAct_request hlen hfetch hhalt, State.frameAct_request hlen hfetch hhalt, State.handToOwner_busy hbusy,
        State.engage_busy hbusy]

end

/-! ## The request in EXECUTING (R181, R182, R185) -/

theorem State.engage_idle {s : State} (h : s.link.engine = .idle) (kind tag : Byte) (own : State → State × Reply) :
    s.engage kind tag own = s.carryOut kind tag own := by
  unfold State.engage; rw [h]

/-- A complete frame taken while the link is DOWN owes no result (R185). -/
theorem State.arrive_of_down {s : State} {p : List Byte} (act : State → State) (hf : s.link.framer = .hunting) (hu : s.link.up = false)
    (ho : s.link.occupancy < Config.resultPlaces) (hp : p.length ≤ Config.maxPayload) : s.arrive p act = act s := by
  rw [State.arrive_taking (by rw [hf]; nofun), State.setFramer_hunting hf]
  unfold State.judgeFrame
  rw [if_neg (by omega), State.owe_of_down hu]

/-- The command of an owned request, on a state that has room and its engine IDLE, is the owning block's work (R181, R182). -/
theorem Request.Owned.frameAct {r : Request} (h : r.Owned) {s : State} (he : s.link.engine = .idle) (own : State → State × Reply) :
    State.frameAct (State.engage r.kind r.tag own) r.kind r.tag r.payload s = s.carryOut r.kind r.tag own := by
  obtain ⟨hlen, hfetch, hhalt⟩ := h
  rw [State.frameAct_request hlen hfetch hhalt, State.engage_idle he]

theorem Request.Owned.payload_le {r : Request} (h : r.Owned) : r.payload.length ≤ Config.maxPayload := by
  have hmax : Config.maxPayload = 1024 := rfl
  have := requestLength_le h.1
  omega

section
variable {s : State} {r : Request} (hr : s.resetHold.held = false) (ho : r.Owned)
include hr ho

/-- A request whose result is owed acts as its command does in IDLE (R181). -/
theorem finish_eq_exec_of_kept (hl : r.lost = false) (hu : s.link.up = true) (howed : s.link.owed = 1) (hroom : s.link.queued.length < 4)
    (hf : s.link.framer = .hunting) : .next (s.finish r (ownOf r.kind r.payload)) =
      exec (Instr.ofFrame r.kind r.tag r.payload) { s with link := { s.link with engine := .idle, owed := 0 } } := by
  have hidle : State.arrived { s with link := { s.link with engine := .idle, owed := 0 } } = s.setEngine .idle := by
    unfold State.arrived State.setEngine
    rw [Nat.zero_add, ← hf, ← howed]
  rw [exec_ofFrame_arrived (by exact hr) (by exact hu) (by show s.link.framer ≠ _; rw [hf]; nofun) (by exact hroom) _ _ ho.payload_le,
    ho.frameAct rfl, hidle, State.finish_of_kept _ hl]

/-- A request whose result is lost acts as its command does while the link is DOWN (R185). -/
theorem exec_eq_carryOut_of_down (hroom : s.link.occupancy < 4) (hf : s.link.framer = .hunting) :
    exec (Instr.ofFrame r.kind r.tag r.payload) { s with link := { s.link with engine := .idle, up := false } } =
      .next (State.carryOut r.kind r.tag (ownOf r.kind r.payload) ((s.setEngine .idle).setUp false)) := by
  rw [exec_ofFrame (by exact hr), State.takeFrame, State.takeFrameWith_eq, State.arrive_of_down _ (by exact hf) rfl (by exact hroom) ho.payload_le,
    ho.frameAct rfl]
  rfl

end

/-- Settles O52: the bytes end in a complete frame; a request in EXECUTING by whether its result is lost. -/
theorem wireFrameIsItsCommand : Obligations.WireFrameIsItsCommand := by
  refine ⟨fun s kind tag p hr hu hf hp => ⟨fun he hroom hlen hfetch hhalt => ?_, fun hother => ?_⟩,
    fun s r hpending hr he howned => ⟨fun hl hu howed hroom => ⟨fun hf => ?_, ?_⟩, fun hl => ⟨fun hf hroom => ?_, ?_⟩⟩⟩
  · have hframer : s.link.framer ≠ .ignoring := by rw [hf]; nofun
    rw [exec_inboundFrameDiscard_released hr, State.takeBytes_wireFrame hu hf hp,
      State.takeLaneFrame_waits hframer hu hroom hlen hfetch hhalt he tag hp]
    rfl
  · have hframer : s.link.framer ≠ .ignoring := by rw [hf]; nofun
    rw [exec_inboundFrameDiscard_released hr, State.takeBytes_wireFrame hu hf hp, exec_ofFrame hr,
      State.takeLaneFrame_of_other hframer hu hother tag hp]
  · rw [step_finish hpending hr he]
    exact finish_eq_exec_of_kept hr howned hl hu howed hroom hf
  · obtain ⟨q, hkind, htag, hlink⟩ := State.carryOut_link_of_up (s := s.setEngine .idle) hu r.kind r.tag r.payload
    refine ⟨_, q, step_finish hpending hr he, ?_⟩
    rw [State.finish_of_kept _ hl, hlink]
    exact ⟨LinkInterface.behindOwner_engine _ _, Nat.sub_eq_zero_of_le howed.le, rfl, hkind, htag⟩
  · refine ⟨_, exec_eq_carryOut_of_down hr howned hroom hf, ?_⟩
    rw [step_finish hpending hr he, State.finish_of_lost _ hl]
    rfl
  · have hlink := State.carryOut_link_of_down (s := (s.setEngine .idle).setUp false) rfl r.kind r.tag r.payload
    refine ⟨_, step_finish hpending hr he, ?_⟩
    rw [State.finish_of_lost _ hl]
    unfold State.setUp at hlink ⊢
    rw [hlink]
    exact ⟨LinkInterface.behindOwner_engine _ _, LinkInterface.behindOwner_owed _ _, LinkInterface.behindOwner_queued _ _, rfl⟩

/-! ## The frame of a command (R179, R198) -/

/-- Settles O53: a request command's kind is its own, and a kind that no request has reads back as UNKNOWN_KIND. -/
theorem frameRoundTrips : Obligations.FrameRoundTrips := by
  intro i kind tag p hw hf
  cases i
  case unknownKind kind' tag' p' => exact Laws.FrameRoundTrip.unknownKind kind' tag' p' kind tag p hw hf
  all_goals cases hf <;> rfl

end Sys2Proof.Machine
end

section
/-! SUPPORT. The outbound lane, SET NOTICES, RESTART, and the whole-part resets as the statements spell them out (R177, R178, R180, R183, R187, R189, R191 to
R193): O5, O46, O47 and O50. -/

namespace Sys2Proof.Machine

/-! ## The whole-part resets (R192) -/

/-- A part held in reset takes no event (R192). -/
theorem whenReleased_held {s : State} (f : State → State) (h : s.resetHold.held = true) : whenReleased f s = .next s :=
  congrArg _ (if_pos h)

/-- The release reports the first of POWER_ON, SUPPLY_DIP and RESET_LINE among the causes (R192). -/
theorem ResetHold.cause_first (h : ResetHold) :
    (h.powerOn = true → h.cause = .powerOn) ∧ (h.powerOn = false → h.supplyDip = true → h.cause = .supplyDip) ∧
      (h.powerOn = false → h.supplyDip = false → h.cause = .resetLine) := by
  unfold ResetHold.cause
  refine ⟨fun hp => ?_, fun hp hd => ?_, fun hp hd => ?_⟩
  · rw [if_pos hp]
  · rw [hp, hd]; rfl
  · rw [hp, hd]; rfl

/-- Settles O5: each cause puts the part at its reset values and holds it, and no other but the release and an input's has an effect. -/
theorem wholePartResetsHoldAndRelease : Obligations.WholePartResetsHoldAndRelease := by
  refine ⟨fun s => ⟨⟨_, rfl⟩, ⟨_, rfl⟩, ⟨_, rfl⟩, fun hh => ?_, fun hh => ?_⟩, fun c s hh hsignal hdown hup hpower hline hdip hrelease => ?_⟩
  · exact ⟨s.leaveReset, congrArg _ (if_pos hh), _, rfl, rfl, rfl, s.resetHold.cause_first⟩
  · exact congrArg _ (if_neg (by rw [hh]; decide))
  · cases c
    case lineSignalChange i v => exact absurd rfl (hsignal i v)
    case linkDown => exact absurd rfl hdown
    case linkUp => exact absurd rfl hup
    case powerOn => exact absurd rfl hpower
    case lineReset => exact absurd rfl hline
    case supplyDip => exact absurd rfl hdip
    case resetRelease => exact absurd rfl hrelease
    all_goals exact whenReleased_held _ hh

/-! ## The outbound arbiter (R183, R187, R193) -/

/-- In a list in some strict order, the element found is the one that passes while all before it in the order fail. -/
theorem find?_eq_some_of_pairwise {α : Type} {R : α → α → Prop} {l : List α} {p : α → Bool} {a : α} (hl : l.Pairwise R) (hmem : a ∈ l)
    (ha : p a = true) (hbefore : ∀ b, R b a → p b = false) : l.find? p = some a := by
  induction hl with
  | nil => exact nomatch hmem
  | @cons b l hb _ ih =>
    rcases List.mem_cons.mp hmem with rfl | hmem
    · exact List.find?_cons_of_pos ha
    · rw [List.find?_cons_of_neg (by rw [hbefore b (hb a hmem)]; decide), ih hmem]

theorem NoticeId.mem_all (id : NoticeId) : id ∈ NoticeId.all := by cases id <;> decide

theorem NoticeId.all_by_priority : NoticeId.all.Pairwise fun i j => (NoticeId.code i).toNat < (NoticeId.code j).toNat := by decide

section
variable {t : NoticeTable}

theorem NoticeTable.ready_first {id : NoticeId} (hp : (t.get id).pending = true) (he : (t.get id).enabled = true)
    (hbefore : ∀ j, (NoticeId.code j).toNat < (NoticeId.code id).toNat → (t.get j).pending = false ∨ (t.get j).enabled = false) :
    t.ready = some id :=
  find?_eq_some_of_pairwise NoticeId.all_by_priority id.mem_all (Bool.and_eq_true_iff.mpr ⟨hp, he⟩)
    fun j hj => Bool.and_eq_false_iff.mpr (hbefore j hj)

theorem NoticeTable.ready_none (h : ∀ j, (t.get j).pending = false ∨ (t.get j).enabled = false) : t.ready = none :=
  List.find?_eq_none.mpr fun j _ => by rw [Bool.and_eq_false_iff.mpr (h j)]; decide

end

section
variable {s : State}

/-- While the link is DOWN, the lane busy or a restart due, nothing is chosen (R183; log 16). -/
theorem exec_outboundChoice_not (hr : s.resetHold.held = false) (h : s.link.mayChoose = false) : exec .outboundChoice s = .next s :=
  (whenReleased_of _ hr).trans (congrArg _ (if_neg (by rw [h]; decide)))

theorem exec_outboundChoice_may (hr : s.resetHold.held = false) (h : s.link.mayChoose = true) : exec .outboundChoice s = .next s.choose :=
  (whenReleased_of _ hr).trans (congrArg _ (if_pos h))

theorem LinkInterface.mayChoose_iff (l : LinkInterface) :
    l.mayChoose = true ↔ l.up = true ∧ l.outFrame = none ∧ l.restartDue = false := by
  unfold LinkInterface.mayChoose
  simp only [Bool.and_eq_true, Option.isNone_iff_eq_none, Bool.not_eq_true', and_assoc]

/-! The choice, by priority (R183). -/

theorem State.choose_start {cause : ResetCause} (h : s.link.startOwed = some cause) :
    s.choose = s.beginOut .start startFrameKind 0 (startPayload cause s.time.state) := by
  unfold State.choose; rw [h]

section
variable (hstart : s.link.startOwed = none)
include hstart

theorem State.choose_result {r : Result} {rest : List Result} (h : s.link.queued = r :: rest) :
    s.choose = s.beginOut .result resultFrameKind r.tag r.payload := by
  unfold State.choose; rw [hstart, h]

section
variable (hqueued : s.link.queued = [])
include hqueued

theorem State.choose_notice {id : NoticeId} (h : s.notices.ready = some id) : s.choose = s.beginNotice id := by
  unfold State.choose; rw [hstart, hqueued, h]

theorem State.choose_record (h : s.notices.ready = none) : s.choose = s.chooseRecord := by
  unfold State.choose; rw [hstart, hqueued, h]

end

end

theorem State.chooseRecord_head {f : Fetch} {e : Entry} {rest : List Entry} (he : s.link.engine = .delivering f) (hh : f.halts = [])
    (hq : s.queue.entries = e :: rest) : s.chooseRecord = s.beginOut .record recordFrameKind f.tag e.bytes := by
  unfold State.chooseRecord
  rw [he, hq]
  exact if_pos (by rw [hh]; rfl)

theorem State.chooseRecord_none (h : (∀ f, s.link.engine = .delivering f → f.halts ≠ []) ∨ s.queue.entries = []) : s.chooseRecord = s := by
  unfold State.chooseRecord
  split
  · rename_i f e rest he hq
    have hh := (h.resolve_right (by rw [hq]; exact List.cons_ne_nil _ _)) f he
    exact if_neg (mt List.isEmpty_iff.mp hh)
  all_goals rfl

end

/-- Settles O46: the four kinds of frame in their priority, and no choice. -/
theorem outboundChoiceIsByPriority : Obligations.OutboundChoiceIsByPriority := by
  intro s hr
  refine ⟨fun h => ?_, fun hu hnone hdue => ?_⟩
  · refine exec_outboundChoice_not hr (Bool.eq_false_iff.mpr fun hmay => ?_)
    obtain ⟨hu, hnone, hdue⟩ := s.link.mayChoose_iff.mp hmay
    rcases h with h | h | h
    · exact nomatch hu.symm.trans h
    · exact h hnone
    · exact nomatch hdue.symm.trans h
  · rw [exec_outboundChoice_may hr (s.link.mayChoose_iff.mpr ⟨hu, hnone, hdue⟩)]
    refine ⟨fun cause hc => ?_, fun hstart => ⟨fun r rest hq => ?_, fun hq => ⟨fun id hp he hbefore => ?_, fun hidle =>
      ⟨fun f e rest he hh hentries => ?_, fun hno => ?_⟩⟩⟩⟩
    · rw [State.choose_start hc]; rfl
    · rw [State.choose_result hstart hq]; rfl
    · rw [State.choose_notice hstart hq (NoticeTable.ready_first hp he hbefore)]; rfl
    · rw [State.choose_record hstart hq (NoticeTable.ready_none hidle), State.chooseRecord_head he hh hentries]; rfl
    · rw [State.choose_record hstart hq (NoticeTable.ready_none hidle), State.chooseRecord_none hno]

/-! ## Completions (R178, R180, R191, R193) -/

section
variable {s : State} {o : OutFrame}

theorem State.completeResult_of (ho : s.link.outFrame = some o) (hk : o.kind = .result) :
    s.completeResult = { s with link := s.link.popResult } := by
  unfold State.completeResult; rw [ho]; exact if_pos hk

theorem State.completeResult_none (h : ∀ o, s.link.outFrame = some o → o.kind ≠ .result) : s.completeResult = s := by
  unfold State.completeResult
  cases ho : s.link.outFrame with
  | none => rfl
  | some o => exact if_neg (h o ho)

theorem LinkInterface.popResult_cons {l : LinkInterface} {r : Result} {rest : List Result} (h : l.queued = r :: rest) :
    l.popResult = { l with outFrame := none, queued := rest, restartDue := l.restartDue || r.isRestart } := by
  unfold LinkInterface.popResult; rw [h]

theorem State.completeStart_of (ho : s.link.outFrame = some o) (hk : o.kind = .start) :
    s.completeStart = { s with link := s.link.started } := by
  unfold State.completeStart; rw [ho]; exact if_pos hk

theorem State.completeStart_none (h : ∀ o, s.link.outFrame = some o → o.kind ≠ .start) : s.completeStart = s := by
  unfold State.completeStart
  cases ho : s.link.outFrame with
  | none => rfl
  | some o => exact if_neg (h o ho)

theorem State.completeNotice_of {id : NoticeId} {n : BitVec 8} {x : Summary} (ho : s.link.outFrame = some o) (hk : o.kind = .notice id n x) :
    s.completeNotice = s.freeLane := by
  unfold State.completeNotice; rw [ho]; simp only [hk]

theorem State.completeNotice_none (h : ∀ o id n x, s.link.outFrame = some o → o.kind ≠ .notice id n x) : s.completeNotice = s := by
  unfold State.completeNotice
  cases ho : s.link.outFrame with
  | none => rfl
  | some o =>
    cases hk : o.kind with
    | notice id n x => exact absurd hk (h o id n x ho)
    | start => simp only [hk]
    | result => simp only [hk]
    | record => simp only [hk]

section
variable (h : s.resetHold.held = false)
include h

theorem exec_resultFrameComplete_released : exec .resultFrameComplete s = .next s.completeResult := whenReleased_of _ h

theorem exec_startFrameComplete_released : exec .startFrameComplete s = .next s.completeStart := whenReleased_of _ h

theorem exec_noticeFrameComplete_released : exec .noticeFrameComplete s = .next s.completeNotice := whenReleased_of _ h

end

end

/-- Settles O47: each completion of the frame in progress, and of another. -/
theorem outboundFramesComplete : Obligations.OutboundFramesComplete := by
  intro s hr
  rw [exec_resultFrameComplete_released hr, exec_startFrameComplete_released hr, exec_noticeFrameComplete_released hr]
  refine ⟨fun o ho => ⟨fun r rest hk hq => ?_, fun hk => ?_, fun id n x hk => ?_⟩, fun h => ?_, fun h => ?_, fun h => ?_⟩
  · rw [State.completeResult_of ho hk, LinkInterface.popResult_cons hq]; rfl
  · rw [State.completeStart_of ho hk]; rfl
  · rw [State.completeNotice_of ho hk]; rfl
  · rw [State.completeResult_none h]
  · rw [State.completeStart_none h]
  · rw [State.completeNotice_none h]

/-! ## SET NOTICES and RESTART (R189, R191) -/

theorem NoticeTable.get_enable (t : NoticeTable) (set : Byte) (id : NoticeId) :
    (t.enable set).get id = { t.get id with enabled := set.getLsbD ((NoticeId.code id).toNat - 1) } := by
  cases id <;> rfl

/-- The sum that makes up a set of sources has its members' flags as bits, OVERFLOW's lowest (R195). -/
theorem sourceSet_eq_ofNat (member : NoticeSource → Bool) (t : NoticeTable) :
    sourceSet member t = BitVec.ofNat 8 (BitVec.ofBoolListLE (NoticeId.all.map fun id => member (t.get id))).toNat := by
  have weights : ∀ b0 b1 b2 b3 b4 b5 b6 b7 : Bool,
      [if b0 then 2 ^ 0 else 0, if b1 then 2 ^ 1 else 0, if b2 then 2 ^ 2 else 0, if b3 then 2 ^ 3 else 0, if b4 then 2 ^ 4 else 0,
        if b5 then 2 ^ 5 else 0, if b6 then 2 ^ 6 else 0, if b7 then 2 ^ 7 else 0].sum =
        (BitVec.ofBoolListLE [b0, b1, b2, b3, b4, b5, b6, b7]).toNat := by decide
  exact congrArg (BitVec.ofNat 8) (weights _ _ _ _ _ _ _ _)

theorem getLsbD_sourceSet (member : NoticeSource → Bool) (t : NoticeTable) (id : NoticeId) :
    (sourceSet member t).getLsbD ((NoticeId.code id).toNat - 1) = member (t.get id) := by
  rw [sourceSet_eq_ofNat, BitVec.getLsbD_ofNat, BitVec.testBit_toNat, BitVec.getLsbD_ofBoolListLE]
  cases id <;> rfl

theorem exec_setNotices_released {s : State} (h : s.resetHold.held = false) (tag : Byte) (p : List Byte) :
    exec (.setNotices tag p) s = .next (s.request 0x30 ownSetNotices tag p) := whenReleased_of _ h

theorem exec_restart_released {s : State} (h : s.resetHold.held = false) (tag : Byte) (p : List Byte) :
    exec (.restart tag p) s = .next (s.request restartKind ownRestart tag p) := whenReleased_of _ h

/-- An admitted SET NOTICES: the flags replaced, and the pending flags answered (R189). -/
theorem State.request_setNotices {s : State} {b : Byte} (h : s.Admits 0x30 [b]) (tag : Byte) : s.request 0x30 ownSetNotices tag [b] =
    State.replied 0x30 tag (.ok [(s.notices.enable b).pendingSet]) { s with notices := s.notices.enable b } := by
  have hset : BitVec.ofNat 8 (byteAt [b] 0) = b := by rw [byteAt_cons_zero, BitVec.ofNat_toNat, BitVec.setWidth_eq]
  refine State.request_replied ownSetNotices h ?_ rfl
  unfold ownSetNotices
  rw [hset]
  rfl

/-- An admitted RESTART on a link that is UP: its OK result queued, and the framer closed (R191). -/
theorem State.request_restart {s : State} (h : s.Admits restartKind []) (tag : Byte) :
    s.request restartKind ownRestart tag [] = { s with link := { s.link with
      framer := .ignoring, queued := s.link.queued ++ [{ tag := tag, kind := restartKind, code := .ok, fields := [] }] } } := by
  rw [State.request_of ownRestart h, State.answer_of_up (by exact h.up)]
  simp [ownRestart, Reply.ok, State.arrived, h.up]

/-- Settles O50: SET NOTICES source by source; RESTART as admitted. -/
theorem noticesAreEnabledAndRestartAsked : Obligations.NoticesAreEnabledAndRestartAsked := by
  intro s b tag
  refine ⟨fun h => ⟨{ s with notices := s.notices.enable b }, ?_, rfl, s.notices.get_enable b, fun id => ?_⟩, fun h => ?_⟩
  · rw [exec_setNotices_released h.released, State.request_setNotices h]
  · exact (getLsbD_sourceSet _ _ id).trans (by rw [NoticeTable.get_enable])
  · rw [exec_restart_released h.released, State.request_restart h]; rfl

end Sys2Proof.Machine
end

section
/-! SUPPORT. The machine's step as the statements spell it: a command always answers with a next state, and the queue of waiting commands is the step's
alone to take from: O1 and O3. (A property that EventsKeep carries must hold after a reset with any queue, so the queue itself is followed here command by
command.) -/

namespace Sys2Proof.Machine

/-! ## The queue of waiting commands behind the owning blocks (R182) -/

/-- A request to a line port leaves the waiting commands alone. -/
theorem pending_of_line {f : List Byte → State → State × Reply} (h : ∀ p s, (f p s).1 = s ∨ ∃ i, LineActs i s (f p s).1) (p : List Byte)
    (s : State) : (f p s).1.pending = s.pending := by
  rcases h p s with e | ⟨i, a⟩
  · rw [e]
  · exact a.pending

/-- A request to a feed leaves the waiting commands alone. -/
theorem pending_of_feed {f : List Byte → State → State × Reply} (h : ∀ p s, ∃ i, Acts i s (f p s).1 ∧ Moves i s (f p s).1 0 0)
    (p : List Byte) (s : State) : (f p s).1.pending = s.pending := by
  obtain ⟨i, a, -⟩ := h p s
  exact a.same.pending

theorem pending_writeSelector (p : List Byte) (s : State) : (ownWriteSelector p s).1.pending = s.pending := by
  unfold ownWriteSelector; split <;> rfl

theorem pending_clearSelector (p : List Byte) (s : State) : (ownClearSelector p s).1.pending = s.pending := by
  unfold ownClearSelector; split <;> rfl

theorem pending_configureQueue (p : List Byte) (s : State) : (ownConfigureQueue p s).1.pending = s.pending := by
  unfold ownConfigureQueue; simp only; split <;> rfl

theorem pending_linkBlind (q : List Instr) : LinkBlind (fun s => s.pending = q) := ⟨fun _ _ h => h, fun _ _ h => h⟩

/-- No owning block touches the waiting commands. -/
theorem pending_owners (q : List Instr) : OwnersKeep (fun s => s.pending = q) where
  toLinkBlind := pending_linkBlind q
  enableLine p s h := (pending_of_line LineActs.ownEnableLine p s).trans h
  disableLine p s h := (pending_of_line LineActs.ownDisableLine p s).trans h
  configureLine p s h := (pending_of_line LineActs.ownConfigureLine p s).trans h
  writeSelector p s h := (pending_writeSelector p s).trans h
  clearSelector p s h := (pending_clearSelector p s).trans h
  configureFeed p s h := (pending_of_feed Acts.ownConfigureFeed p s).trans h
  openFeed p s h := (pending_of_feed Acts.ownOpenFeed p s).trans h
  closeFeed p s h := (pending_of_feed Acts.ownCloseFeed p s).trans h
  setTime p s h := (TimeActs.ownSetTime p s).same.pending.trans h
  adjustTime p s h := (TimeActs.ownAdjustTime p s).same.pending.trans h
  slew p s h := (TimeActs.ownSlew p s).same.pending.trans h
  setRate p s h := (TimeActs.ownSetRate p s).same.pending.trans h
  configureReference p s h := (TimeActs.ownConfigureReference p s).same.pending.trans h
  configureDiscipline p s h := (TimeActs.ownConfigureDiscipline p s).same.pending.trans h
  track p s h := (TimeActs.ownTrack p s).same.pending.trans h
  measure p s h := (TimeActs.ownMeasure p s).same.pending.trans h
  configureQueue p s h := (pending_configureQueue p s).trans h

/-! ## The queue of waiting commands behind the other events -/

theorem State.grant_pending (s : State) : s.grant.pending = s.pending := by
  unfold State.grant; repeat' split
  all_goals rfl

theorem State.extractAndTake_pending (m : Matched) (s : State) : (s.extractAndTake m).pending = s.pending := by
  unfold State.extractAndTake
  split
  · exact State.countShort_pending s _
  · exact (Acts.takeArrival _ _ s).same.pending

theorem State.handOver_pending (s : State) : s.handOver.pending = s.pending := by
  unfold State.handOver
  split
  · rfl
  · split
    · exact State.count_pending _ _ _
    · exact State.extractAndTake_pending _ s.freeClassifier
    · exact State.extractAndTake_pending _ s.freeClassifier

theorem State.offerStats_pending (s : State) : s.offerStats.pending = s.pending :=
  List.foldlRecOn (motive := fun t => t.pending = s.pending) _ _ rfl fun t h _ _ => (State.offerNow_pending t _).trans h

theorem State.expireStats_pending (s : State) : s.expireStats.pending = s.pending := by
  unfold State.expireStats
  split
  · split
    · exact State.offerStats_pending _
    · rfl
  · rfl

theorem State.completeRecord_pending (s : State) : s.completeRecord.pending = s.pending := by
  unfold State.completeRecord
  split
  · simp only
    split
    · exact (pending_linkBlind s.pending).fetchLooks _ rfl
    · rfl
    · rfl
  · rfl

/-! ## Commands -/

/-- No command ends in a fault or a refusal: the meaning of each is a next state (log 23). -/
theorem exec_total (c : Instr) (s : State) : ∃ t, exec c s = .next t := by
  cases c <;> exact ⟨_, rfl⟩

/-- What an event leaves of the waiting commands, its command leaves, in the hold of a reset too (R192). -/
theorem whenReleased_pending {f : State → State} {s t : State} (hf : (f s).pending = s.pending) (e : whenReleased f s = .next t) :
    t.pending = s.pending :=
  whenReleased_keeps (P := fun u => u.pending = s.pending) hf rfl e

/-- No command touches the queue of waiting commands; a reset of the whole part carries it over (log 24). -/
theorem exec_pending {c : Instr} {s t : State} (e : exec c s = .next t) : t.pending = s.pending := by
  have b := pending_linkBlind s.pending
  cases hc : c.toFrame with
  | some f =>
    obtain ⟨k, tag, p⟩ := f
    rw [exec_of_toFrame hc] at e
    exact whenReleased_pending ((pending_owners s.pending).takeFrame k tag p rfl) e
  | none =>
    cases c
    case lineSignalChange i v =>
      injection e with e; rw [← e]; split
      · exact State.setSd_pending s i v
      · exact (LineActs.portSignal i v (s.setSd i v)).pending
    case linkDown =>
      injection e with e; rw [← e]; split
      · exact State.setLinkSd_pending s false
      · exact b.dropLink (State.setLinkSd_pending s false)
    case linkUp =>
      injection e with e; rw [← e]; split
      · exact State.setLinkSd_pending s true
      · exact b.setUp true (State.setLinkSd_pending s true)
    case powerOn => injection e with e; rw [← e]; rfl
    case lineReset => injection e with e; rw [← e]; rfl
    case supplyDip => injection e with e; rw [← e]; rfl
    case resetRelease => injection e with e; rw [← e]; split <;> rfl
    all_goals first | exact absurd hc (Option.some_ne_none _) | refine whenReleased_pending ?_ e
    case startOfFrame i => exact (LineActs.portStart i s).pending
    case endOfFrame i good bytes => exact (LineActs.portEnd i good bytes s).pending
    case quietTimerExpiry i => exact (LineActs.portQuiet i s).pending
    case ingressGrant => exact s.grant_pending
    case handOver => exact s.handOver_pending
    case pairingTimerExpiry i => exact (Acts.expirePairing i s).same.pending
    case gapTimerExpiry i => exact (Acts.expireGaps i s).same.pending
    case candidateExpiry i => exact (Acts.expireCandidate i s).same.pending
    case silenceDeadlineExpiry i leg => exact (Acts.expireSilence i leg s).same.pending
    case statisticsTimerExpiry => exact s.expireStats_pending
    case referencePulse r edge => exact (TimeActs.takePulse r edge s).same.pending
    case referenceTimeout r => exact (TimeActs.timeoutMonitor r s).same.pending
    case holdoverTimerExpiry => exact (TimeActs.expireHoldover s).same.pending
    case slewComplete => exact (TimeActs.completeSlew s).same.pending
    case inboundFrameDiscard bytes => exact b.takeBytes bytes rfl
    case outboundChoice =>
      split
      · exact b.choose rfl
      · rfl
    case resultFrameComplete => exact b.completeResult rfl
    case recordFrameComplete => exact s.completeRecord_pending
    case startFrameComplete => exact b.completeStart rfl
    case noticeFrameComplete => exact b.completeNotice rfl
    case restartExecute => split <;> rfl

/-- Settles O3: every arm of exec is a next state, and each keeps the queue by the frame of its event. -/
theorem everyCommandAnswersNext : Obligations.EveryCommandAnswersNext := by
  intro c s
  obtain ⟨t, e⟩ := exec_total c s
  exact ⟨t, e, exec_pending e⟩

/-! ## The step of a waiting command -/

/-- With a command waiting, the step is that command behind the queue's rest (log 19). -/
theorem step_of_pending {c : Instr} {rest : List Instr} {s : State} (h : s.pending = c :: rest) :
    step s = exec c { s with pending := rest } := by
  unfold step; rw [h]

/-- Settles O1: the rest of the queue is the queue as it stood before the command was put in front. -/
theorem stepRunsFrontCommand : Obligations.StepRunsFrontCommand :=
  fun c s => step_of_pending (s := { s with pending := c :: s.pending }) rfl

end Sys2Proof.Machine
end
